-- ==== Sys2Proof/Word.lean ====
section
/-! DEFINITION. The data the rules speak of: bits, bit sequences, samples, the units of the block
(00_scope.md rule R6, 10_state.md rule R10). -/

namespace Sys2Proof

/-- One 8-bit unsigned sample (00_scope.md rule R5, SAMPLE_BITS). -/
abbrev Byte := BitVec 8

/-- A finite bit sequence; index 0 is the first bit in stream order (00_scope.md rule R6). -/
abbrev BitSeq := List Bool

/-- The two units of the block (10_state.md rule R10); bit 3 of a command code selects one
(30_encoding.md rule R86). -/
inductive UnitId where
  | gUnit
  | iUnit
  deriving DecidableEq, Repr

end Sys2Proof
end

