-- ==== Sys2Proof/Syntax.lean ====
section
/-! DEFINITION. The words of the block and its instructions: one constructor of `Instr` for each row
of spec/opcode_table.json (30_encoding.md rules R70, R86, R87, R81, R85, R79, R71; 60_exceptions.md rule R235). -/

namespace Sys2Proof

/-- The sign-mapping modes (10_state.md rule R14; codes in 30_encoding.md rule R85). -/
inductive SignMode where
  | signMagnitude
  | interleaving
  deriving DecidableEq, Repr

/-- The six predictors (30_encoding.md rule R81). -/
inductive Predictor where
  | prev
  | above
  | average
  | paeth
  | jpegLs
  | gradient
  deriving DecidableEq, Repr

/-- The outcome of an operation (60_exceptions.md rule R235). -/
inductive ErrCode where
  | ok
  | invalidParameter
  | invalidShape
  | malformed
  deriving DecidableEq, Repr

/-- Where a PRED4 word of one of the six predictors stands (opcode_table.json, "where": I.OP_PRED; I.PRED).
The third place of the table, bits 48 to 51 of a header, is the field `p` of `Instr.frameHeader`.
DESIGN CHOICE, notes/assumptions/3.md. -/
inductive PredPlace where
  /-- the host writes I.OP_PRED -/
  | operand
  /-- the select input of the predictor multiplexer (44_predictor.md rule R163) -/
  | select
  deriving DecidableEq, Repr

/-- Where a MODE1 word stands (opcode_table.json, "where": G.OP_MODE; G.MODE).
DESIGN CHOICE, notes/assumptions/4.md. -/
inductive ModePlace where
  /-- the host writes G.OP_MODE -/
  | operand
  /-- the select input of the sign mapper in front of the encoder (41_sign_mapping.md rule R115) -/
  | forward
  /-- the select input of the inverse sign mapper behind the decoder -/
  | inverse
  deriving DecidableEq, Repr

/-- A word standing at one of the places where the block takes one; the place gives the word's format
(DESIGN CHOICE, notes/assumptions/2.md). -/
inductive PortWord where
  /-- a CMD4 word at the command port -/
  | cmd (w : BitVec 4)
  /-- a PRED4 word -/
  | pred (place : PredPlace) (w : BitVec 4)
  /-- a MODE1 word -/
  | mode (place : ModePlace) (w : BitVec 1)
  /-- an ERR2 word on its way to the outcome register of a unit -/
  | err (u : UnitId) (w : BitVec 2)
  /-- a HDR64 word, most significant bit first in the stream -/
  | header (w : BitVec 64)
  /-- the bits at the G unit's decoder, the codeword first -/
  | codeword (S : BitSeq)
  deriving DecidableEq, Repr

/-- One constructor per row of spec/opcode_table.json. -/
inductive Instr where
  /-- `G.CONSTRUCT` (40_golomb_config.md rule R102) -/
  | gConstruct
  /-- `G.SETM` (40_golomb_config.md rule R103) -/
  | gSetm
  /-- `G.ENCODE` (42_golomb_encode.md rule R126) -/
  | gEncode
  /-- `G.ENCODETO` (42_golomb_encode.md rule R127) -/
  | gEncodeto
  /-- `G.DECODE` (43_golomb_decode.md rule R140) -/
  | gDecode
  /-- `G.BITSTOSTR` (42_golomb_encode.md rule R131) -/
  | gBitstostr
  /-- `I.CONSTRUCT` (47_image_encode.md rule R195) -/
  | iConstruct
  /-- `I.ENCODE` (47_image_encode.md rule R196) -/
  | iEncode
  /-- `I.DECODE` (48_image_decode.md rule R215) -/
  | iDecode
  /-- reserved command code 0110 (30_encoding.md rule R87) -/
  | reservedCmd0110
  /-- reserved command code 0111 -/
  | reservedCmd0111
  /-- reserved command code 1011 -/
  | reservedCmd1011
  /-- reserved command code 1100 -/
  | reservedCmd1100
  /-- reserved command code 1101 -/
  | reservedCmd1101
  /-- reserved command code 1110 -/
  | reservedCmd1110
  /-- reserved command code 1111 -/
  | reservedCmd1111
  /-- predictor id 0 (44_predictor.md rule R157) -/
  | predPrev (place : PredPlace)
  /-- predictor id 1 (44_predictor.md rule R158) -/
  | predAbove (place : PredPlace)
  /-- predictor id 2 (44_predictor.md rule R159) -/
  | predAverage (place : PredPlace)
  /-- predictor id 3 (44_predictor.md rule R160) -/
  | predPaeth (place : PredPlace)
  /-- predictor id 4 (44_predictor.md rule R161) -/
  | predJpegLs (place : PredPlace)
  /-- predictor id 5 (44_predictor.md rule R162) -/
  | predGradient (place : PredPlace)
  /-- reserved predictor id 6, at I.OP_PRED (30_encoding.md rule R82) -/
  | predReserved6
  /-- reserved predictor id 7, at I.OP_PRED -/
  | predReserved7
  /-- reserved predictor id 8, at I.OP_PRED -/
  | predReserved8
  /-- reserved predictor id 9, at I.OP_PRED -/
  | predReserved9
  /-- reserved predictor id 10, at I.OP_PRED -/
  | predReserved10
  /-- reserved predictor id 11, at I.OP_PRED -/
  | predReserved11
  /-- reserved predictor id 12, at I.OP_PRED -/
  | predReserved12
  /-- reserved predictor id 13, at I.OP_PRED -/
  | predReserved13
  /-- reserved predictor id 14, at I.OP_PRED -/
  | predReserved14
  /-- reserved predictor id 15, at I.OP_PRED -/
  | predReserved15
  /-- mode code 0 (41_sign_mapping.md rule R116) -/
  | modeSignMagnitude (place : ModePlace)
  /-- mode code 1 (41_sign_mapping.md rule R117) -/
  | modeInterleaving (place : ModePlace)
  /-- outcome code 0 (60_exceptions.md rule R235) -/
  | errOk (u : UnitId)
  /-- outcome code 1 (60_exceptions.md rule R236) -/
  | errInvalidParameter (u : UnitId)
  /-- outcome code 2 (60_exceptions.md rule R237) -/
  | errInvalidShape (u : UnitId)
  /-- outcome code 3 (60_exceptions.md rule R238) -/
  | errMalformed (u : UnitId)
  /-- the 64-bit frame header (30_encoding.md rule R79): width, height, m, predictor id, reserved field -/
  | frameHeader (w h m : BitVec 16) (p : BitVec 4) (r : BitVec 12)
  /-- the codeword of `n` under the divisor `m` (30_encoding.md rule R71) -/
  | codeword (m n : Nat)
  deriving DecidableEq, Repr

end Sys2Proof
end

