-- ==== Sys2Proof/Decode.lean ====
section
/-! DEFINITION. The encodings of 30_encoding.md: numbers as bits, the codeword and the header, and the
decoder and encoder of the words of the block. -/

namespace Sys2Proof

/-! ### Numbers as bits (00_scope.md rules R6, R7, R8) -/

/-- `bitsOf v k`: the k bits of v, most significant first (00_scope.md rule R6). -/
def bitsOf (v : Nat) : Nat → BitSeq
  | 0 => []
  | k + 1 => (v / 2 ^ k % 2 == 1) :: bitsOf v k

/-- `valOf T`, the number whose bits are T, most significant first (00_scope.md rule R6). -/
def valOf (T : BitSeq) : Nat := T.foldl (fun acc b => 2 * acc + b.toNat) 0

/-- `MemRead(BIT, a, n)`: `none` is the MALFORMED of 00_scope.md rule R7 and 20_memory.md rule R46. -/
def readBits (S : BitSeq) (a n : Nat) : Option Nat :=
  if n = 0 then some 0
  else if a + n ≤ S.length then some (valOf ((S.drop a).take n))
  else none

/-- Search upwards from `k` for a power of two that reaches `m`. -/
def clog2From : (fuel k m : Nat) → Nat
  | 0, k, _ => k
  | fuel + 1, k, m => if m ≤ 2 ^ k then k else clog2From fuel (k + 1) m

/-- `clog2 m`: the least k with 2^k ≥ m (00_scope.md rule R8, 40_golomb_config.md rule R100). -/
def clog2 (m : Nat) : Nat := clog2From m 0 m

/-- `t = 2^b - m` (40_golomb_config.md rule R101; C2: 0 at m = 1). -/
def threshold (m : Nat) : Nat := 2 ^ clog2 m - m

/-! ### Byte packing, the contract the host keeps (20_memory.md rule R44) -/

/-- Byte `i` of a packed sequence: bits 8i to 8i + 7, the first the most significant, missing bits zero. -/
def packedByte (S : BitSeq) (i : Nat) : Byte :=
  let T := (S.drop (8 * i)).take 8
  BitVec.ofNat 8 (valOf (T ++ List.replicate (8 - T.length) false))

/-- A bit sequence packed into bytes, most significant bit first, the last byte filled with zeros. -/
def packBytes (S : BitSeq) : List Byte := (List.range ((S.length + 7) / 8)).map (packedByte S)

/-- The bit sequence a host presents for the bytes of a file: all 8 bits of every byte. -/
def unpackBytes (B : List Byte) : BitSeq := B.flatMap (fun v => bitsOf v.toNat 8)

/-! ### The codeword -/

/-- The truncated-binary remainder `TB(r, m)` (30_encoding.md rule R73). -/
def remainderBits (r m : Nat) : BitSeq :=
  if m = 1 then []
  else if r < threshold m then bitsOf r (clog2 m - 1)
  else bitsOf (r + threshold m) (clog2 m)

/-- `CW(n, m) = ones(q) ++ 0 ++ TB(r, m)` (30_encoding.md rule R71). -/
def codewordBits (n m : Nat) : BitSeq :=
  List.replicate (n / m) true ++ false :: remainderBits (n % m) m

/-- `len(n, m)` (30_encoding.md rule R76). -/
def codewordLen (n m : Nat) : Nat :=
  n / m + 1 +
    (if m = 1 then 0 else if n % m < threshold m then clog2 m - 1 else clog2 m)

/-- The unary phase: how many one-bits stand before the first zero-bit; `none` where the sequence ends
first (43_golomb_decode.md rules R142a, R145). -/
def unaryRun : BitSeq → Option Nat
  | [] => none
  | false :: _ => some 0
  | true :: S => (unaryRun S).map (· + 1)

/-- The remainder phase at index `p`: the remainder and how many bits it took (43_golomb_decode.md
rules R141, R142b). -/
def readRemainder (S : BitSeq) (p m : Nat) : Option (Nat × Nat) :=
  if m = 1 then some (0, 0)
  else do
    let r' ← readBits S p (clog2 m - 1)
    if r' < threshold m then
      some (r', clog2 m - 1)
    else
      let e ← readBits S (p + (clog2 m - 1)) 1
      some (2 * r' + e - threshold m, clog2 m - 1 + 1)

/-- One codeword read at `pos` under the divisor `m`: the mapped value n and the bits consumed
(43_golomb_decode.md rules R141, R144). The test `r ≥ m` is the dead check of rule R143 (C9). -/
def readSymbol (S : BitSeq) (pos m : Nat) : Option (Nat × Nat) := do
  let q ← unaryRun (S.drop pos)
  let rk ← readRemainder S (pos + (q + 1)) m
  if m ≤ rk.1 then none else some (q * m + rk.1, q + 1 + rk.2)

/-! ### The frame header -/

/-- The five header fields as numbers (30_encoding.md rules R79, R80). -/
structure Header where
  /-- width, stream bits 0 to 15 -/
  w : Nat
  /-- height, stream bits 16 to 31 -/
  h : Nat
  /-- divisor of the body, stream bits 32 to 47 -/
  m : Nat
  /-- predictor id, stream bits 48 to 51 -/
  p : Nat
  /-- reserved field, stream bits 52 to 63 -/
  r : Nat
  deriving DecidableEq, Repr

/-- The header as the first 64 bits of a frame (30_encoding.md rule R79, 47_image_encode.md rule R200). -/
def Header.toBits (hd : Header) : BitSeq :=
  bitsOf hd.w 16 ++ bitsOf hd.h 16 ++ bitsOf hd.m 16 ++ bitsOf hd.p 4 ++ bitsOf hd.r 12

/-- The header read from bit 0 of a source (48_image_decode.md rules R215, R217); `none` where the
source is shorter than 64 bits. -/
def readHeader (S : BitSeq) : Option Header := do
  let w ← readBits S 0 16
  let h ← readBits S 16 16
  let m ← readBits S 32 16
  let p ← readBits S 48 4
  let r ← readBits S 52 12
  some { w := w, h := h, m := m, p := p, r := r }

/-- The header as one number, HDR[63:48] = width and so on (30_encoding.md rule R79). -/
def headerWord (w h m : BitVec 16) (p : BitVec 4) (r : BitVec 12) : BitVec 64 :=
  w ++ h ++ m ++ p ++ r

/-! ### Selector codes -/

/-- Predictor id codes (30_encoding.md rule R81). -/
def Predictor.code : Predictor → BitVec 4
  | .prev => 0
  | .above => 1
  | .average => 2
  | .paeth => 3
  | .jpegLs => 4
  | .gradient => 5

/-- The predictor of an id; the codes 6 to 15 select none (30_encoding.md rule R82). -/
def Predictor.ofId (id : Nat) : Option Predictor :=
  match id with
  | 0 => some .prev
  | 1 => some .above
  | 2 => some .average
  | 3 => some .paeth
  | 4 => some .jpegLs
  | 5 => some .gradient
  | _ => none

/-- Sign-mapping mode codes (30_encoding.md rule R85). -/
def SignMode.code : SignMode → BitVec 1
  | .signMagnitude => 0
  | .interleaving => 1

/-- Outcome codes (60_exceptions.md rule R235). -/
def ErrCode.code : ErrCode → BitVec 2
  | .ok => 0
  | .invalidParameter => 1
  | .invalidShape => 2
  | .malformed => 3

/-! ### Decoder and encoder -/

/-- Why a word is no instruction. -/
inductive DecodeError where
  /-- a reserved predictor id at the select input of the multiplexer, where the function "is not defined
  and is never called" (44_predictor.md rule R163); safe: the model stops -/
  | noPredictor (id : BitVec 4)
  /-- the bits at the decoder end inside the codeword (30_encoding.md rule R88: MALFORMED) -/
  | truncatedCodeword
  deriving DecidableEq, Repr

/-- A CMD4 word (30_encoding.md rules R86, R87). -/
def decodeCommand (w : BitVec 4) : Instr :=
  match w.toNat with
  | 0 => .gConstruct
  | 1 => .gSetm
  | 2 => .gEncode
  | 3 => .gEncodeto
  | 4 => .gDecode
  | 5 => .gBitstostr
  | 6 => .reservedCmd0110
  | 7 => .reservedCmd0111
  | 8 => .iConstruct
  | 9 => .iEncode
  | 10 => .iDecode
  | 11 => .reservedCmd1011
  | 12 => .reservedCmd1100
  | 13 => .reservedCmd1101
  | 14 => .reservedCmd1110
  | _ => .reservedCmd1111

/-- A PRED4 word at I.OP_PRED (30_encoding.md rules R81, R82). -/
def decodePredOperand (w : BitVec 4) : Instr :=
  match w.toNat with
  | 0 => .predPrev .operand
  | 1 => .predAbove .operand
  | 2 => .predAverage .operand
  | 3 => .predPaeth .operand
  | 4 => .predJpegLs .operand
  | 5 => .predGradient .operand
  | 6 => .predReserved6
  | 7 => .predReserved7
  | 8 => .predReserved8
  | 9 => .predReserved9
  | 10 => .predReserved10
  | 11 => .predReserved11
  | 12 => .predReserved12
  | 13 => .predReserved13
  | 14 => .predReserved14
  | _ => .predReserved15

/-- A PRED4 word at the multiplexer's select input (44_predictor.md rule R163). -/
def decodePredSelect (w : BitVec 4) : Except DecodeError Instr :=
  match Predictor.ofId w.toNat with
  | some .prev => .ok (.predPrev .select)
  | some .above => .ok (.predAbove .select)
  | some .average => .ok (.predAverage .select)
  | some .paeth => .ok (.predPaeth .select)
  | some .jpegLs => .ok (.predJpegLs .select)
  | some .gradient => .ok (.predGradient .select)
  | none => .error (.noPredictor w)

/-- A MODE1 word (30_encoding.md rule R85). -/
def decodeMode (place : ModePlace) (w : BitVec 1) : Instr :=
  match w.toNat with
  | 0 => .modeSignMagnitude place
  | _ => .modeInterleaving place

/-- An ERR2 word (60_exceptions.md rule R235). -/
def decodeErr (u : UnitId) (w : BitVec 2) : Instr :=
  match w.toNat with
  | 0 => .errOk u
  | 1 => .errInvalidParameter u
  | 2 => .errInvalidShape u
  | _ => .errMalformed u

/-- A HDR64 word (30_encoding.md rule R79). -/
def decodeHeader (w : BitVec 64) : Instr :=
  .frameHeader (w.extractLsb' 48 16) (w.extractLsb' 32 16) (w.extractLsb' 16 16)
    (w.extractLsb' 12 4) (w.extractLsb' 0 12)

/-- The instruction a word stands for, total on every word; `m` is the divisor in force, which a
codeword cannot be read without (30_encoding.md rule R78). Bits after the first codeword are not
looked at (43_golomb_decode.md rule R146). -/
def decode (m : Nat) : PortWord → Except DecodeError Instr
  | .cmd w => .ok (decodeCommand w)
  | .pred .operand w => .ok (decodePredOperand w)
  | .pred .select w => decodePredSelect w
  | .mode place w => .ok (decodeMode place w)
  | .err u w => .ok (decodeErr u w)
  | .header w => .ok (decodeHeader w)
  | .codeword S =>
    match readSymbol S 0 m with
    | some nk => .ok (.codeword m nk.1)
    | none => .error .truncatedCodeword

/-- The word of an instruction, from the tables of 30_encoding.md. -/
def encode : Instr → PortWord
  | .gConstruct => .cmd 0b0000
  | .gSetm => .cmd 0b0001
  | .gEncode => .cmd 0b0010
  | .gEncodeto => .cmd 0b0011
  | .gDecode => .cmd 0b0100
  | .gBitstostr => .cmd 0b0101
  | .reservedCmd0110 => .cmd 0b0110
  | .reservedCmd0111 => .cmd 0b0111
  | .iConstruct => .cmd 0b1000
  | .iEncode => .cmd 0b1001
  | .iDecode => .cmd 0b1010
  | .reservedCmd1011 => .cmd 0b1011
  | .reservedCmd1100 => .cmd 0b1100
  | .reservedCmd1101 => .cmd 0b1101
  | .reservedCmd1110 => .cmd 0b1110
  | .reservedCmd1111 => .cmd 0b1111
  | .predPrev place => .pred place 0b0000
  | .predAbove place => .pred place 0b0001
  | .predAverage place => .pred place 0b0010
  | .predPaeth place => .pred place 0b0011
  | .predJpegLs place => .pred place 0b0100
  | .predGradient place => .pred place 0b0101
  | .predReserved6 => .pred .operand 0b0110
  | .predReserved7 => .pred .operand 0b0111
  | .predReserved8 => .pred .operand 0b1000
  | .predReserved9 => .pred .operand 0b1001
  | .predReserved10 => .pred .operand 0b1010
  | .predReserved11 => .pred .operand 0b1011
  | .predReserved12 => .pred .operand 0b1100
  | .predReserved13 => .pred .operand 0b1101
  | .predReserved14 => .pred .operand 0b1110
  | .predReserved15 => .pred .operand 0b1111
  | .modeSignMagnitude place => .mode place 0b0
  | .modeInterleaving place => .mode place 0b1
  | .errOk u => .err u 0b00
  | .errInvalidParameter u => .err u 0b01
  | .errInvalidShape u => .err u 0b10
  | .errMalformed u => .err u 0b11
  | .frameHeader w h m p r => .header (headerWord w h m p r)
  | .codeword m n => .codeword (codewordBits n m)

/-- The width in bits the opcode table gives an instruction's row; `none` for the codeword, whose
width varies (30_encoding.md rule R76). -/
def Instr.tableWidth : Instr → Option Nat
  | .codeword _ _ => none
  | .frameHeader _ _ _ _ _ => some 64
  | .errOk _ | .errInvalidParameter _ | .errInvalidShape _ | .errMalformed _ => some 2
  | .modeSignMagnitude _ | .modeInterleaving _ => some 1
  | _ => some 4

/-- The width in bits of a word, by its format. -/
def PortWord.width : PortWord → Nat
  | .cmd _ => 4
  | .pred _ _ => 4
  | .mode _ _ => 1
  | .err _ _ => 2
  | .header _ => 64
  | .codeword S => S.length

/-! ### The numbering of spec/opcode_table.json -/

/-- The port word of a table word of `nbits` bits (whole bytes, or the row's own width). A word of one
byte, or of four bits, is read as a command, though PRED4, MODE1 and ERR2 rows have the same numbers:
their format is the place they stand at, which a number does not say (notes/assumptions/2.md). -/
def tableWord (nbits w : Nat) : Option PortWord :=
  match nbits with
  | 1 => if w < 2 then some (.mode .operand (BitVec.ofNat 1 w)) else none
  | 2 => if w < 4 then some (.err .gUnit (BitVec.ofNat 2 w)) else none
  | 4 => if w < 16 then some (.cmd (BitVec.ofNat 4 w)) else none
  | 8 => if w < 16 then some (.cmd (BitVec.ofNat 4 w)) else none
  | 64 => if w < 2 ^ 64 then some (.header (BitVec.ofNat 64 w)) else none
  | _ => none

/-- The instruction the decoder reads from a table word. -/
def decodeTableWord (nbits w : Nat) : Option Instr :=
  match tableWord nbits w with
  | none => none
  | some p =>
    match decode 1 p with
    | .ok i => some i
    | .error _ => none

end Sys2Proof
end

