-- ==== Sys2Proof/Machine/Golomb.lean ====
section
/-! DEFINITION. The pure functions of the Golomb unit: sign mapping (41_sign_mapping.md), the symbol
encoder (42_golomb_encode.md) and the symbol decoder (43_golomb_decode.md). -/

namespace Sys2Proof.Machine

/-- `SM(v) = 2 * abs(v) + (1 if v < 0 else 0)` (41_sign_mapping.md rule R116). -/
def signMag (v : Int) : Nat := 2 * v.natAbs + (if v < 0 then 1 else 0)

/-- `SM_inv(n)` (41_sign_mapping.md rule R116); `SM_inv(1) = 0`. -/
def signMagInv (n : Nat) : Int := if n % 2 = 1 then -((n / 2 : Nat) : Int) else ((n / 2 : Nat) : Int)

/-- `IL(v)` (41_sign_mapping.md rule R117). -/
def interleave (v : Int) : Nat := if 0 ≤ v then 2 * v.natAbs else 2 * v.natAbs - 1

/-- `IL_inv(n)` (41_sign_mapping.md rule R118). -/
def interleaveInv (n : Nat) : Int :=
  if n % 2 = 0 then ((n / 2 : Nat) : Int) else -(((n + 1) / 2 : Nat) : Int)

/-- `map(v, mode)` (41_sign_mapping.md rule R115). -/
def signMap (mode : SignMode) (v : Int) : Nat :=
  match mode with
  | .signMagnitude => signMag v
  | .interleaving => interleave v

/-- `unmap(n, mode)` (41_sign_mapping.md rule R115). -/
def signUnmap (mode : SignMode) (n : Nat) : Int :=
  match mode with
  | .signMagnitude => signMagInv n
  | .interleaving => interleaveInv n

/-- `encodeSym(v, m, mode)` (42_golomb_encode.md rule R125). -/
def encodeSym (v : Int) (m : Nat) (mode : SignMode) : BitSeq := codewordBits (signMap mode v) m

/-- `decodeSym(S, pos, m, mode)`: the value and bitsConsumed, or `none` for MALFORMED
(43_golomb_decode.md rules R141, R145). -/
def decodeSym (S : BitSeq) (pos m : Nat) (mode : SignMode) : Option (Int × Nat) :=
  match readSymbol S pos m with
  | some nk => some (signUnmap mode nk.1, nk.2)
  | none => none

/-- One character per bit, in stream order (42_golomb_encode.md rule R131). -/
def bitsToString (S : BitSeq) : List Char := S.map (fun b => if b then '1' else '0')

end Sys2Proof.Machine
end

