-- ==== Sys2Proof/Config.lean ====
section
/-! DEFINITION. The implementation parameters of 00_scope.md rule R5 and the free values of
93_implementation_defined.md. A free value is opaque: nothing can be proved about which value it is. -/

namespace Sys2Proof

/-- M_MAX, the largest divisor the G unit accepts (00_scope.md rule R5; D30). -/
def Config.mMax : Nat := 65535

/-- DIM_MAX, the largest width or height (00_scope.md rule R5). -/
def Config.dimMax : Nat := 65535

/-- What a non-zero reserved header field does on decode (00_scope.md rule R5, HDR_RSVD_POLICY; D14). -/
inductive Config.RsvdPolicy where
  | reject
  | ignore
  deriving DecidableEq, Repr

/-- HDR_RSVD_POLICY = `reject` (30_encoding.md rule R83). -/
def Config.hdrRsvdPolicy : Config.RsvdPolicy := .reject

/-- The unspecified integer drawn by the k-th event that leaves one (U2; notes/assumptions/13.md). -/
opaque Config.freeInt : Nat → Int

/-- The unspecified natural number drawn by the k-th event (U2, U18; notes/assumptions/13.md, 16.md). -/
opaque Config.freeNat : Nat → Nat

/-- The unspecified content of a bit sink after the k-th failed I.ENCODE (U1; notes/assumptions/14.md). -/
opaque Config.freeBitSeq : Nat → BitSeq

/-- The unspecified content of a raster after the k-th failed I.DECODE (U1; notes/assumptions/15.md). -/
opaque Config.freeBytes : Nat → List Byte

/-- The unspecified content of the residual buffer between operations (U18; notes/assumptions/16.md). -/
opaque Config.freeInts : Nat → List Int

/-- The unspecified content of the i-th fixed-width transient register after the k-th image operation
(U18; notes/assumptions/16.md). -/
opaque Config.freeReg (w : Nat) (i k : Nat) : BitVec w

end Sys2Proof
end

