-- ==== Sys2Proof/Machine/State.lean ====
section
/-! DEFINITION. Every piece of state of the block (10_state.md), the host's two memories (20_memory.md),
the reasons a step can stop, and the state after reset (70_reset_and_hazards.md rule R265). -/

namespace Sys2Proof.Machine

/-- The raster: (address, sample) pairs with addresses strictly rising. An unlisted address holds no
sample: the host has provided none (20_memory.md rules R47, R59; DESIGN CHOICE, notes/assumptions/12.md). -/
abbrev Memory := List Host.Cell

/-- The canonical form. As an unlisted address reads as no value, no entry can equal it. -/
abbrev Memory.wf (m : Memory) : Prop := m.Pairwise (fun p q => p.1 < q.1)

/-- The parameter state of the G unit (10_state.md rule R16). -/
inductive ParamState where
  | ready
  | paramStale
  deriving DecidableEq, Repr

/-- The registers of the G unit (10_state.md rules R11 to R17, R28). -/
structure GUnit where
  /-- G.VALID -/
  valid : Bool
  /-- G.M, the divisor -/
  m : BitVec 16
  /-- G.B = clog2 G.M -/
  b : BitVec 5
  /-- G.T = 2^G.B - G.M -/
  t : BitVec 15
  /-- G.MODE -/
  mode : SignMode
  /-- G.PSTATE -/
  pstate : ParamState
  /-- G.OP_M -/
  opM : Nat
  /-- G.OP_MODE -/
  opMode : SignMode
  /-- G.OP_VALUE -/
  opValue : Int
  /-- G.OP_POS -/
  opPos : Nat
  /-- G.RES_VALUE -/
  resValue : Int
  /-- G.RES_CONSUMED -/
  resConsumed : Nat
  /-- G.CW -/
  cw : BitSeq
  /-- G.STR -/
  str : List Char
  /-- G.ERR -/
  err : ErrCode
  deriving DecidableEq, Repr

/-- The registers of the I unit that live between operations (10_state.md rules R18, R19, R26). -/
structure IUnit where
  /-- I.VALID -/
  valid : Bool
  /-- I.PRED -/
  pred : Predictor
  /-- I.OP_PRED -/
  opPred : BitVec 4
  /-- I.OP_W -/
  opW : Nat
  /-- I.OP_H -/
  opH : Nat
  /-- I.OP_LEN -/
  opLen : Nat
  /-- I.ERR -/
  err : ErrCode
  deriving DecidableEq, Repr

/-- The transient registers of the I unit (10_state.md rules R20 to R25): any value between operations
(93_implementation_defined.md U18). GI.MODE is the constant `giMode`. -/
structure Transients where
  /-- I.W -/
  w : BitVec 16
  /-- I.H -/
  h : BitVec 16
  /-- GI.M -/
  gm : BitVec 16
  /-- GI.B -/
  gb : BitVec 5
  /-- GI.T -/
  gt : BitVec 15
  /-- I.X, the column of the sequencer's position -/
  x : BitVec 16
  /-- I.Y, the row of the sequencer's position -/
  y : BitVec 16
  /-- I.CUR, the bit cursor -/
  cur : Nat
  /-- I.L, the west neighbour -/
  l : BitVec 8
  /-- I.A, the north neighbour -/
  a : BitVec 8
  /-- I.C, the north-west neighbour -/
  c : BitVec 8
  /-- I.RES, the residual buffer -/
  res : List Int
  /-- I.SUMABS, the accumulator of the estimator -/
  sumabs : Nat
  deriving DecidableEq, Repr

/-- GI.MODE: the mode of the I unit's private Golomb context is always INTERLEAVING (10_state.md rule R20). -/
def giMode : SignMode := .interleaving

/-- The MODEL's own field: the output wires (10_state.md rule R30) of the predictor multiplexer and of
the sign mapper, shown when a selector word is executed on its own (notes/assumptions/8.md). -/
structure Probe where
  /-- the prediction P -/
  p : Int
  /-- the non-negative integer n of the sign mapping -/
  n : Nat
  /-- the signed value of the inverse sign mapping -/
  v : Int
  deriving DecidableEq, Repr

/-- What the host (or a place of the block) presents to the sequencer between operations
(10_state.md rules R10, R17, R26; 20_memory.md rule R59; 70_reset_and_hazards.md rules R265, R266). -/
inductive Request where
  /-- a word at one of the places of the block -/
  | word (p : PortWord)
  /-- write G.OP_M -/
  | opM (m : Nat)
  /-- write G.OP_VALUE -/
  | opValue (v : Int)
  /-- write G.OP_POS -/
  | opPos (pos : Nat)
  /-- write I.OP_W -/
  | opW (w : Nat)
  /-- write I.OP_H -/
  | opH (h : Nat)
  /-- write I.OP_LEN -/
  | opLen (len : Nat)
  /-- provide a bit sequence as the source and sink -/
  | bits (S : BitSeq)
  /-- provide a bit sequence given as the bytes of a file (20_memory.md rule R44) -/
  | packedBits (B : List Byte)
  /-- provide a raster, the bytes of addresses 0, 1, 2 and so on -/
  | raster (B : List Byte)
  /-- reset, at an operation boundary -/
  | reset
  deriving DecidableEq, Repr

/-- The machine. -/
structure State where
  /-- the G unit -/
  g : GUnit
  /-- the I unit -/
  i : IUnit
  /-- the transient registers of the I unit -/
  fr : Transients
  /-- the BIT space: the host's bit sequence, source and sink (20_memory.md rules R41, R54) -/
  bit : BitSeq
  /-- the PIX space: the host's raster (20_memory.md rule R47) -/
  pix : Memory
  /-- MODEL's own: the requests not yet taken, the next one first (notes/assumptions/1.md) -/
  inbox : List Request
  /-- MODEL's own: output wires (notes/assumptions/8.md) -/
  probe : Probe
  /-- MODEL's own: how many events have drawn free values (notes/assumptions/17.md) -/
  freeCtr : Nat
  deriving DecidableEq, Repr

/-- Why the machine stops with a fault. -/
inductive Fault where
  /-- I.ENCODE needs the sample at `addr`, and the host's raster holds none there: the host failure of
  93_implementation_defined.md U12. Raised by I.ENCODE only; safe: the model stops. -/
  | sampleAbsent (addr : Nat)
  deriving DecidableEq, Repr

/-- Why a request has no step. -/
inductive Refusal where
  /-- an instruction without a meaning yet; raised by `exec` only; safe -/
  | notModelled (mnemonic : String)
  /-- an operation on a unit whose VALID bit is 0 (60_exceptions.md rule R248; U8); safe -/
  | notConstructed (u : UnitId)
  /-- a command code that names no operation (30_encoding.md rule R87; U7); safe -/
  | reservedCommand (code : BitVec 4)
  /-- I.CONSTRUCT with an id in 6 to 15 (47_image_encode.md rule R195; U3); safe -/
  | reservedPredictor (id : BitVec 4)
  /-- G.CONSTRUCT or G.SETM with m above M_MAX (60_exceptions.md rule R248; U9); safe -/
  | divisorTooLarge (m : Nat)
  /-- I.ENCODE with a sink that is not empty, whatever its operands (70_reset_and_hazards.md rule R275;
  U17); safe -/
  | sinkNotEmpty
  /-- a reserved predictor id at the select input of the multiplexer, where no function is defined
  (44_predictor.md rule R163); raised by `step` only; safe -/
  | noPredictorSelected (id : BitVec 4)
  deriving DecidableEq, Repr

/-- The G unit after reset (70_reset_and_hazards.md rule R265); the registers that rule leaves without a
value: DESIGN CHOICE, notes/assumptions/9.md. -/
def GUnit.reset : GUnit :=
  { valid := false, m := 1, b := 0, t := 0, mode := .signMagnitude, pstate := .ready
    opM := 0, opMode := .signMagnitude, opValue := 0, opPos := 0
    resValue := 0, resConsumed := 0, cw := [], str := [], err := .ok }

/-- The I unit after reset; DESIGN CHOICE where rule R265 gives no value, notes/assumptions/9.md. -/
def IUnit.reset : IUnit :=
  { valid := false, pred := .prev, opPred := 0, opW := 0, opH := 0, opLen := 0, err := .ok }

/-- The transient registers after reset: DESIGN CHOICE, notes/assumptions/9.md. -/
def Transients.reset : Transients :=
  { w := 1, h := 1, gm := 1, gb := 0, gt := 0, x := 0, y := 0, cur := 0, l := 0, a := 0, c := 0
    res := [], sumabs := 0 }

/-- The machine right after reset, with nothing provided by the host. -/
def State.reset : State :=
  { g := GUnit.reset, i := IUnit.reset, fr := Transients.reset, bit := [], pix := [], inbox := []
    probe := { p := 0, n := 0, v := 0 }, freeCtr := 0 }

end Sys2Proof.Machine
end

