-- ==== Sys2Proof/Machine/Ops.lean ====
section
/-! DEFINITION. The named operations over the raster and the registers, and taking an error
(60_exceptions.md rule R241), the one exception mechanism of the block. -/

namespace Sys2Proof.Machine

/-! ### The raster (20_memory.md rules R47, R49) -/

/-- `MemRead(PIX, a, 1)`; `none` at an address the host has not provided. -/
def Memory.read : Memory → Nat → Option Byte
  | [], _ => none
  | (b, v) :: m, a => if a = b then some v else if a < b then none else Memory.read m a

/-- `MemWrite(PIX, a, 1, v)`, in canonical form. -/
def Memory.write : Memory → Nat → Byte → Memory
  | [], a, v => [(a, v)]
  | (b, u) :: m, a, v =>
    if a = b then (a, v) :: m
    else if a < b then (a, v) :: (b, u) :: m
    else (b, u) :: Memory.write m a v

/-- The cells of a list of bytes at consecutive addresses from `a`. -/
def Memory.cellsFrom : Nat → List Byte → Memory
  | _, [] => []
  | a, v :: B => (a, v) :: Memory.cellsFrom (a + 1) B

/-- A raster given as the list of its bytes (00_scope.md rule R6). -/
def Memory.ofBytes (B : List Byte) : Memory := Memory.cellsFrom 0 B

/-- The raster with everything below address `n` replaced by the content `B` (as much of `B` as lies
below `n`; where `B` is shorter the address reads as no value). -/
def Memory.replaceBelow (n : Nat) (B : List Byte) (m : Memory) : Memory :=
  Memory.ofBytes (B.take n) ++ m.filter (fun c => decide (n ≤ c.1))

/-! ### Updates of the state, one per field -/

/-- Replace the registers of the G unit. -/
def State.setG (g : GUnit) (s : State) : State := { s with g := g }

/-- Replace the registers of the I unit. -/
def State.setI (i : IUnit) (s : State) : State := { s with i := i }

/-- Replace the transient registers. -/
def State.setFr (fr : Transients) (s : State) : State := { s with fr := fr }

/-- Replace the bit sequence. -/
def State.setBit (S : BitSeq) (s : State) : State := { s with bit := S }

/-- Replace the raster. -/
def State.setPix (m : Memory) (s : State) : State := { s with pix := m }

/-- Replace the requests not yet taken. -/
def State.setInbox (rs : List Request) (s : State) : State := { s with inbox := rs }

/-- Replace the probe. -/
def State.setProbe (p : Probe) (s : State) : State := { s with probe := p }

/-- Count one event that has drawn free values. -/
def State.drawn (s : State) : State := { s with freeCtr := s.freeCtr + 1 }

/-! ### Outcomes and taking an error -/

/-- Deliver the outcome of an operation in the ERR register of its unit; the configuration registers and
everything else stay (60_exceptions.md rules R235, R241 points 2 to 4). There is no handler, no saved
position and so no return operation (rules R241, R242). -/
def State.deliver (u : UnitId) (k : ErrCode) (s : State) : State :=
  match u with
  | .gUnit => s.setG { s.g with err := k }
  | .iUnit => s.setI { s.i with err := k }

/-- `raise K` in a G operation that writes no result register before it can fail
(60_exceptions.md rule R241; 40_golomb_config.md rules R102, R103). -/
def raiseG (k : ErrCode) (s : State) : State := s.deliver .gUnit k

/-- MALFORMED in G.DECODE: the two result registers are unspecified afterwards (60_exceptions.md rule R241
point 5; U2): free values, notes/assumptions/13.md. -/
def failGDecode (s : State) : State :=
  (raiseG .malformed
    (s.setG { s.g with
      resValue := Config.freeInt s.freeCtr, resConsumed := Config.freeNat s.freeCtr })).drawn

/-- Unspecified transient registers (U18): free values of each register's width,
notes/assumptions/16.md. -/
def freeTransients (k : Nat) : Transients :=
  { w := Config.freeReg 16 0 k, h := Config.freeReg 16 1 k, gm := Config.freeReg 16 2 k
    gb := Config.freeReg 5 3 k, gt := Config.freeReg 15 4 k, x := Config.freeReg 16 5 k
    y := Config.freeReg 16 6 k, cur := Config.freeNat k, l := Config.freeReg 8 7 k
    a := Config.freeReg 8 8 k, c := Config.freeReg 8 9 k, res := Config.freeInts k
    sumabs := Config.freeNat (k + 1) }

/-- The end of an image operation with outcome `k`: the outcome is delivered and the transient registers
lose their meaning (47_image_encode.md rule R196; 10_state.md rule R20). Two draws are counted, since
two transient registers take a free natural number. -/
def endImage (k : ErrCode) (s : State) : State :=
  ((s.setFr (freeTransients s.freeCtr)).deliver .iUnit k).drawn.drawn

/-- An error in I.ENCODE: the sink is unspecified afterwards (20_memory.md rule R60; U1): a free value,
notes/assumptions/14.md. -/
def failIEncode (k : ErrCode) (s : State) : State :=
  endImage k (s.setBit (Config.freeBitSeq s.freeCtr))

/-- An error in I.DECODE: the raster of W * H bytes is unspecified afterwards (48_image_decode.md rule
R222; U1): a free value, notes/assumptions/15.md. -/
def failIDecode (k : ErrCode) (s : State) : State :=
  endImage k (s.setPix (s.pix.replaceBelow (s.i.opW * s.i.opH) (Config.freeBytes s.freeCtr)))

/-! ### The guards of rule R248 -/

/-- `require G.VALID = 1 else refused`. -/
def requireG (s : State) (next : State) : Host.Outcome State Fault Refusal :=
  if s.g.valid then .next next else .refused (.notConstructed .gUnit)

/-- `require I.VALID = 1 else refused`. -/
def requireI (s : State) (k : Host.Outcome State Fault Refusal) : Host.Outcome State Fault Refusal :=
  if s.i.valid then k else .refused (.notConstructed .iUnit)

/-- `G.M <- m` with `G.B` and `G.T` recomputed in the same step (40_golomb_config.md rules R102 to R104;
10_state.md rule R16). -/
def GUnit.writeDivisor (m : Nat) (g : GUnit) : GUnit :=
  { g with
    m := BitVec.ofNat 16 m, b := BitVec.ofNat 5 (clog2 m), t := BitVec.ofNat 15 (threshold m)
    pstate := .ready }

end Sys2Proof.Machine
end

