-- ==== Sys2Proof/Machine/GolombOps.lean ====
section
/-! DEFINITION. The meanings of the six operations of the G unit (40_golomb_config.md, 42_golomb_encode.md,
43_golomb_decode.md) and of a codeword standing at its decoder. -/

namespace Sys2Proof.Machine

/-- G.CONSTRUCT (40_golomb_config.md rule R102). -/
def execGConstruct (s : State) : Host.Outcome State Fault Refusal :=
  if s.g.opM = 0 then .next (raiseG .invalidParameter s)
  else if Config.mMax < s.g.opM then .refused (.divisorTooLarge s.g.opM)
  else
    .next (s.setG { s.g.writeDivisor s.g.opM with mode := s.g.opMode, valid := true, err := .ok })

/-- G.SETM (40_golomb_config.md rule R103). -/
def execGSetm (s : State) : Host.Outcome State Fault Refusal :=
  if s.g.valid = false then .refused (.notConstructed .gUnit)
  else if s.g.opM = 0 then .next (raiseG .invalidParameter s)
  else if Config.mMax < s.g.opM then .refused (.divisorTooLarge s.g.opM)
  else .next (s.setG { s.g.writeDivisor s.g.opM with err := .ok })

/-- G.ENCODE (42_golomb_encode.md rule R126). -/
def execGEncode (s : State) : Host.Outcome State Fault Refusal :=
  requireG s
    (s.setG { s.g with cw := encodeSym s.g.opValue s.g.m.toNat s.g.mode, err := .ok })

/-- G.ENCODETO (42_golomb_encode.md rule R127). -/
def execGEncodeto (s : State) : Host.Outcome State Fault Refusal :=
  requireG s
    ((s.setBit (s.bit ++ encodeSym s.g.opValue s.g.m.toNat s.g.mode)).deliver .gUnit .ok)

/-- One symbol of the source `S` at `pos`, under the registers of the G unit, into the result registers
(43_golomb_decode.md rule R140). -/
def gDecodeAt (S : BitSeq) (pos : Nat) (s : State) : State :=
  match decodeSym S pos s.g.m.toNat s.g.mode with
  | some (v, k) => s.setG { s.g with resValue := v, resConsumed := k, err := .ok }
  | none => failGDecode s

/-- G.DECODE (43_golomb_decode.md rule R140). -/
def execGDecode (s : State) : Host.Outcome State Fault Refusal :=
  requireG s (gDecodeAt s.bit s.g.opPos s)

/-- G.BITSTOSTR (42_golomb_encode.md rule R131). -/
def execGBitstostr (s : State) : Host.Outcome State Fault Refusal :=
  requireG s (s.setG { s.g with str := bitsToString s.bit, err := .ok })

/-- A codeword standing at the decoder of the G unit: its bits are decoded as G.DECODE decodes a source
(30_encoding.md rules R71, R75; 43_golomb_decode.md rule R141). Under another divisor than the one it
was written for they parse as some other value or end early (43_golomb_decode.md rule R146).
DESIGN CHOICE, notes/assumptions/7.md. -/
def execCodeword (m n : Nat) (s : State) : Host.Outcome State Fault Refusal :=
  requireG s (gDecodeAt (codewordBits n m) 0 s)

/-- Bits at the decoder that end inside the codeword (30_encoding.md rule R88; 43_golomb_decode.md rule
R145): MALFORMED, as G.DECODE ends on them. -/
def rejectTruncated (s : State) : Host.Outcome State Fault Refusal := requireG s (failGDecode s)

end Sys2Proof.Machine
end

