-- ==== Sys2Proof/Machine/Flags.lean ====
section
/-! DEFINITION. The block has no arithmetic flags; its only status is the outcome of an operation
(10_state.md rule R27). This file holds the checks that decide an outcome, in the order of
60_exceptions.md rule R240. -/

namespace Sys2Proof.Machine

/-- A width or height operand that is zero or exceeds 65535 (47_image_encode.md rule R197,
48_image_decode.md rule R216). -/
def dimsBad (W H : Nat) : Bool :=
  decide (W = 0) || decide (H = 0) || decide (Config.dimMax < W) || decide (Config.dimMax < H)

/-- The outcome of the header checks of I.DECODE, first failing check first (48_image_decode.md rule
R217; 60_exceptions.md rule R240 points 3 to 7). -/
def headerCheck (W H : Nat) (pred : Predictor) (hd : Header) : ErrCode :=
  if hd.w ≠ W ∨ hd.h ≠ H then .malformed
  else if 5 < hd.p then .malformed
  else if hd.p ≠ pred.code.toNat then .malformed
  else if Config.hdrRsvdPolicy = .reject ∧ hd.r ≠ 0 then .malformed
  else if hd.m = 0 then .invalidParameter
  else .ok

end Sys2Proof.Machine
end

