-- ==== Sys2Proof/Machine/Operands.lean ====
section
/-! DEFINITION. Where operands come from: the host's writes of operand registers and buffers between
operations (10_state.md rules R17, R26; 20_memory.md rule R59), and the neighbour fetch of the image
operations (44_predictor.md rule R155). -/

namespace Sys2Proof.Machine

/-- Reset at an operation boundary: every register of both units as after reset; the two memories are
the host's and stay (70_reset_and_hazards.md rule R265). The requests not yet taken stay too. -/
def hostReset (s : State) : State :=
  { s with g := GUnit.reset, i := IUnit.reset, fr := Transients.reset }

/-- What a request that is no word does: one operand register or one buffer written, or a reset. A word
is not handled here. -/
def hostWrite (r : Request) (s : State) : State :=
  match r with
  | .word _ => s
  | .opM m => s.setG { s.g with opM := m }
  | .opValue v => s.setG { s.g with opValue := v }
  | .opPos pos => s.setG { s.g with opPos := pos }
  | .opW w => s.setI { s.i with opW := w }
  | .opH h => s.setI { s.i with opH := h }
  | .opLen len => s.setI { s.i with opLen := len }
  | .bits S => s.setBit S
  | .packedBits B => s.setBit (unpackBytes B)
  | .raster B => s.setPix (Memory.ofBytes B)
  | .reset => hostReset s

/-- Write I.OP_PRED with a PRED4 word (10_state.md rule R26). -/
def writeOpPred (code : BitVec 4) (s : State) : State := s.setI { s.i with opPred := code }

/-- Write G.OP_MODE with a MODE1 word (10_state.md rule R17). -/
def writeOpMode (mode : SignMode) (s : State) : State := s.setG { s.g with opMode := mode }

/-- The sample at an address, or the address where the host provided none. -/
def sampleAt (m : Memory) (addr : Nat) : Except Nat Nat :=
  match m.read addr with
  | some v => .ok v.toNat
  | none => .error addr

/-- The west, north and north-west neighbours (L, A, C) of the pixel (x, y), with 0 for a missing one
(44_predictor.md rule R155; 20_memory.md rule R48). The error is the address of a sample that the
raster does not hold. -/
def neighbours (m : Memory) (W x y : Nat) : Except Nat (Nat × Nat × Nat) := do
  let l ← if x = 0 then .ok 0 else sampleAt m (y * W + (x - 1))
  let a ← if y = 0 then .ok 0 else sampleAt m ((y - 1) * W + x)
  let c ← if x = 0 ∨ y = 0 then .ok 0 else sampleAt m ((y - 1) * W + (x - 1))
  .ok (l, a, c)

end Sys2Proof.Machine
end

