-- ==== Sys2Proof/Machine/Image.lean ====
section
/-! DEFINITION. The pure functions of the image codec: the six predictors (44_predictor.md), residual and
reconstruction (45_residual.md), the parameter estimator (46_param_select.md) and the raster sequencer
(10_state.md rule R21; 47_image_encode.md rules R198 to R201; 48_image_decode.md rule R219). -/

namespace Sys2Proof.Machine

/-! ### Predictors -/

/-- PREV (44_predictor.md rule R157). -/
def predictPrev (l _a _c : Int) : Int := l

/-- ABOVE (44_predictor.md rule R158). -/
def predictAbove (_l a _c : Int) : Int := a

/-- AVERAGE (44_predictor.md rule R159). -/
def predictAverage (l a _c : Int) : Int := (l + a).tdiv 2

/-- PAETH, ties in the order L, A, C (44_predictor.md rule R160). -/
def predictPaeth (l a c : Int) : Int :=
  let p := l + a - c
  let pa := (p - l).natAbs
  let pb := (p - a).natAbs
  let pc := (p - c).natAbs
  if pa ≤ pb ∧ pa ≤ pc then l else if pb ≤ pc then a else c

/-- JPEG_LS, the plane predictor, not clamped (44_predictor.md rule R161). -/
def predictJpegLs (l a c : Int) : Int := l + a - c

/-- GRADIENT, halving with truncation toward zero (44_predictor.md rule R162; C3). -/
def predictGradient (l a c : Int) : Int := l + (a - c).tdiv 2

/-- The multiplexer `predict(id, L, A, C)` (44_predictor.md rule R163). -/
def predict (pred : Predictor) (l a c : Int) : Int :=
  match pred with
  | .prev => predictPrev l a c
  | .above => predictAbove l a c
  | .average => predictAverage l a c
  | .paeth => predictPaeth l a c
  | .jpegLs => predictJpegLs l a c
  | .gradient => predictGradient l a c

/-! ### Residual and reconstruction -/

/-- `res = s - P` (45_residual.md rule R175). -/
def residualOf (sample : Nat) (p : Int) : Int := (sample : Int) - p

/-- `clamp255` (00_scope.md rule R8). -/
def clamp255 (v : Int) : Byte := if v < 0 then 0 else if 255 < v then 255 else BitVec.ofInt 8 v

/-- `rec = clamp255(P + res)`, silent (45_residual.md rule R176; CLAMP_POLICY = `clamp`, D16). -/
def reconstruct (p res : Int) : Byte := clamp255 (p + res)

/-! ### Parameter estimator -/

/-- `I.SUMABS`: the sum of abs(r) (10_state.md rule R25). -/
def sumAbs (res : List Int) : Nat := (res.map Int.natAbs).sum

/-- The test `mstar >= k - 1/2` in exact integers (46_param_select.md rule R187). -/
def divisorFits (S N k : Nat) : Bool := decide ((S + N) ^ (2 * k - 1) ≤ 4 * S ^ (2 * k - 1))

/-- The largest k that fits, searched upwards from a `k` already taken. -/
def largestFit : (fuel S N k : Nat) → Nat
  | 0, _, _, k => k
  | fuel + 1, S, N, k => if divisorFits S N (k + 1) then largestFit fuel S N (k + 1) else k

/-- `selectM(res)` in the exact integer form (46_param_select.md rules R185, R187; D19). The fuel S + 1
reaches every k that can fit, since k <= mstar + 1/2 <= S + 1. -/
def selectM (res : List Int) : Nat :=
  if sumAbs res = 0 then 1
  else max 1 (largestFit (sumAbs res + 1) (sumAbs res) res.length 0)

/-! ### The sequencer -/

/-- The successor of the position (I.X, I.Y) in raster order (10_state.md rule R21). -/
def nextPos (W : Nat) (xy : Nat × Nat) : Nat × Nat :=
  if xy.1 + 1 < W then (xy.1 + 1, xy.2) else (0, xy.2 + 1)

/-- The residual of the pixel (x, y) of the source image (47_image_encode.md rule R198). -/
def residualAt (pred : Predictor) (m : Memory) (W x y : Nat) : Except Nat Int := do
  let (l, a, c) ← neighbours m W x y
  let s ← sampleAt m (y * W + x)
  .ok (residualOf s (predict pred l a c))

/-- Pass 1 of I.ENCODE: the residuals of `count` pixels from position `xy` on, in raster order
(47_image_encode.md rule R198). -/
def residualPass (pred : Predictor) (m : Memory) (W : Nat) : (count : Nat) → Nat × Nat → Except Nat (List Int)
  | 0, _ => .ok []
  | count + 1, xy => do
    let r ← residualAt pred m W xy.1 xy.2
    let rs ← residualPass pred m W count (nextPos W xy)
    .ok (r :: rs)

/-- Pass 2 of I.ENCODE: the codewords of the residuals, in order (47_image_encode.md rule R201). -/
def bodyBits (gm : Nat) (res : List Int) : BitSeq := res.flatMap (fun r => encodeSym r gm giMode)

/-- The header and body of a frame (30_encoding.md rule R84; 47_image_encode.md rules R199 to R201). -/
def frameBits (W H : Nat) (pred : Predictor) (res : List Int) : BitSeq :=
  Header.toBits { w := W, h := H, m := selectM res, p := pred.code.toNat, r := 0 } ++
    bodyBits (selectM res) res

/-- The frame of an image (47_image_encode.md rule R196, the part after the shape checks). -/
def encodeImage (pred : Predictor) (m : Memory) (W H : Nat) : Except Nat BitSeq := do
  let res ← residualPass pred m W (W * H) (0, 0)
  .ok (frameBits W H pred res)

/-- How the pixel loop of I.DECODE ends. -/
inductive PassResult where
  /-- every symbol decoded and stored: the cursor and the raster -/
  | done (cur : Nat) (m : Memory)
  /-- the source ends inside, or before, a codeword (48_image_decode.md rule R222) -/
  | truncated
  /-- a neighbour is not in the raster; never, since it was stored before (20_memory.md rule R52) -/
  | absent (addr : Nat)
  deriving DecidableEq, Repr

/-- One turn of the pixel loop of I.DECODE: neighbours from the output raster, prediction, one symbol at
the cursor, the clamped sum stored (48_image_decode.md rules R215, R219). -/
def pixelStep (pred : Predictor) (S : BitSeq) (W gm : Nat) (xy : Nat × Nat) (cur : Nat) (m : Memory) : PassResult :=
  match neighbours m W xy.1 xy.2 with
  | .error addr => .absent addr
  | .ok (l, a, c) =>
    match decodeSym S cur gm giMode with
    | none => .truncated
    | some (res, k) =>
      .done (cur + k) (m.write (xy.2 * W + xy.1) (reconstruct (predict pred l a c) res))

/-- The pixel loop of I.DECODE over `count` pixels from position `xy` on (48_image_decode.md rule R219). -/
def decodePass (pred : Predictor) (S : BitSeq) (W gm : Nat) :
    (count : Nat) → Nat × Nat → (cur : Nat) → Memory → PassResult
  | 0, _, cur, m => .done cur m
  | count + 1, xy, cur, m =>
    match pixelStep pred S W gm xy cur m with
    | .done cur' m' => decodePass pred S W gm count (nextPos W xy) cur' m'
    | r => r

end Sys2Proof.Machine
end

