-- ==== Sys2Proof/Machine/ImageOps.lean ====
section
/-! DEFINITION. The meanings of the three operations of the I unit (47_image_encode.md,
48_image_decode.md) and of a header standing at its header reader. -/

namespace Sys2Proof.Machine

/-- I.CONSTRUCT (47_image_encode.md rule R195). -/
def execIConstruct (s : State) : Host.Outcome State Fault Refusal :=
  match Predictor.ofId s.i.opPred.toNat with
  | some pred => .next (s.setI { s.i with pred := pred, valid := true, err := .ok })
  | none => .refused (.reservedPredictor s.i.opPred)

/-- The shape is illegal for I.ENCODE (47_image_encode.md rule R197). -/
def shapeBad (s : State) : Bool :=
  dimsBad s.i.opW s.i.opH || decide (s.i.opW * s.i.opH ≠ s.i.opLen)

/-- I.ENCODE (47_image_encode.md rule R196). A sink that is not empty is refused (70_reset_and_hazards.md
rule R275; U17) before the operands are looked at, as every refusal is (92_eei_decisions.md D17). A sample
that the raster does not hold (U12) is met where it is read, after the shape checks, which come "before any
sample is read" (rule R197; notes/assumptions/19.md). -/
def execIEncode (s : State) : Host.Outcome State Fault Refusal :=
  requireI s <|
    if s.bit ≠ [] then .refused .sinkNotEmpty
    else if shapeBad s then .next (failIEncode .invalidShape s)
    else
      match encodeImage s.i.pred s.pix s.i.opW s.i.opH with
      | .error addr => .fault (.sampleAbsent addr)
      | .ok F => .next (endImage .ok (s.setBit F))

/-- The body of I.DECODE, after the header checks (48_image_decode.md rules R218, R219, R221, R222). -/
def decodeBody (gm : Nat) (s : State) : Host.Outcome State Fault Refusal :=
  match decodePass s.i.pred s.bit s.i.opW gm (s.i.opW * s.i.opH) (0, 0) 64 s.pix with
  | .done _ m => .next (endImage .ok (s.setPix m))
  | .truncated => .next (failIDecode .malformed s)
  | .absent addr => .fault (.sampleAbsent addr)

/-- I.DECODE (48_image_decode.md rule R215). -/
def execIDecode (s : State) : Host.Outcome State Fault Refusal :=
  requireI s <|
    if dimsBad s.i.opW s.i.opH then .next (failIDecode .invalidShape s)
    else
      match readHeader s.bit with
      | none => .next (failIDecode .malformed s)
      | some hd =>
        match headerCheck s.i.opW s.i.opH s.i.pred hd with
        | .ok => decodeBody hd.m s
        | k => .next (failIDecode k s)

/-- The registers an accepted header sets: I.W, I.H, the private Golomb context and the cursor
(48_image_decode.md rules R215, R218), and the position of the first pixel (10_state.md rule R21). -/
def Transients.startFrame (w h m : BitVec 16) (fr : Transients) : Transients :=
  { fr with
    w := w, h := h, gm := m, gb := BitVec.ofNat 5 (clog2 m.toNat)
    gt := BitVec.ofNat 15 (threshold m.toNat), x := 0, y := 0, cur := 64 }

/-- A header standing at the header reader of the I unit: the checks of 48_image_decode.md rules R216 to
R218 against the operand registers and I.PRED, and the frame's registers set when it passes
(30_encoding.md rules R79, R80). DESIGN CHOICE, notes/assumptions/6.md. -/
def execFrameHeader (w h m : BitVec 16) (p : BitVec 4) (r : BitVec 12) (s : State) :
    Host.Outcome State Fault Refusal :=
  requireI s <|
    if dimsBad s.i.opW s.i.opH then .next (s.deliver .iUnit .invalidShape)
    else
      match headerCheck s.i.opW s.i.opH s.i.pred
          { w := w.toNat, h := h.toNat, m := m.toNat, p := p.toNat, r := r.toNat } with
      | .ok => .next ((s.setFr (s.fr.startFrame w h m)).deliver .iUnit .ok)
      | k => .next (s.deliver .iUnit k)

end Sys2Proof.Machine
end

