-- ==== Sys2Proof/Machine/Reserved.lean ====
section
/-! DEFINITION. The reserved command codes: each is refused, "the block takes no step, changes no state and
reports none of the three error kinds" (30_encoding.md rule R87; 60_exceptions.md rule R248). -/

namespace Sys2Proof.Machine

/-- A command code that names no operation. -/
def refuseCommand (code : BitVec 4) (_s : State) : Host.Outcome State Fault Refusal :=
  .refused (.reservedCommand code)

/-- Command code 0110. -/
def execReservedCmd0110 (s : State) : Host.Outcome State Fault Refusal := refuseCommand 0b0110 s

/-- Command code 0111. -/
def execReservedCmd0111 (s : State) : Host.Outcome State Fault Refusal := refuseCommand 0b0111 s

/-- Command code 1011. -/
def execReservedCmd1011 (s : State) : Host.Outcome State Fault Refusal := refuseCommand 0b1011 s

/-- Command code 1100. -/
def execReservedCmd1100 (s : State) : Host.Outcome State Fault Refusal := refuseCommand 0b1100 s

/-- Command code 1101. -/
def execReservedCmd1101 (s : State) : Host.Outcome State Fault Refusal := refuseCommand 0b1101 s

/-- Command code 1110. -/
def execReservedCmd1110 (s : State) : Host.Outcome State Fault Refusal := refuseCommand 0b1110 s

/-- Command code 1111. -/
def execReservedCmd1111 (s : State) : Host.Outcome State Fault Refusal := refuseCommand 0b1111 s

end Sys2Proof.Machine
end

