-- ==== Sys2Proof/Machine/Selectors.lean ====
section
/-! DEFINITION. The meanings of the selector and outcome codes executed on their own: predictor ids, mode
codes and outcome codes (30_encoding.md rules R81, R82, R85; 60_exceptions.md rule R235).
DESIGN CHOICE, notes/assumptions/3.md, 4.md, 5.md. -/

namespace Sys2Proof.Machine

/-! ### Predictor ids -/

/-- A predictor id at I.OP_PRED is written there; at the select input of the multiplexer, the prediction
`f` of the neighbour window (I.L, I.A, I.C) appears at the multiplexer's output (44_predictor.md rule R163). -/
def selectPredictor (code : BitVec 4) (f : Int → Int → Int → Int) (place : PredPlace) (s : State) :
    Host.Outcome State Fault Refusal :=
  match place with
  | .operand => .next (writeOpPred code s)
  | .select =>
    .next (s.setProbe { s.probe with p := f s.fr.l.toNat s.fr.a.toNat s.fr.c.toNat })

/-- Id 0, PREV (44_predictor.md rule R157). -/
def execPredPrev (place : PredPlace) (s : State) : Host.Outcome State Fault Refusal :=
  selectPredictor 0 predictPrev place s

/-- Id 1, ABOVE (44_predictor.md rule R158). -/
def execPredAbove (place : PredPlace) (s : State) : Host.Outcome State Fault Refusal :=
  selectPredictor 1 predictAbove place s

/-- Id 2, AVERAGE (44_predictor.md rule R159). -/
def execPredAverage (place : PredPlace) (s : State) : Host.Outcome State Fault Refusal :=
  selectPredictor 2 predictAverage place s

/-- Id 3, PAETH (44_predictor.md rule R160). -/
def execPredPaeth (place : PredPlace) (s : State) : Host.Outcome State Fault Refusal :=
  selectPredictor 3 predictPaeth place s

/-- Id 4, JPEG_LS (44_predictor.md rule R161). -/
def execPredJpegLs (place : PredPlace) (s : State) : Host.Outcome State Fault Refusal :=
  selectPredictor 4 predictJpegLs place s

/-- Id 5, GRADIENT (44_predictor.md rule R162). -/
def execPredGradient (place : PredPlace) (s : State) : Host.Outcome State Fault Refusal :=
  selectPredictor 5 predictGradient place s

/-- A reserved id at I.OP_PRED: the operand register takes any four bits; I.CONSTRUCT refuses the id when
it samples it (30_encoding.md rule R82; 47_image_encode.md rule R195). -/
def writeReservedId (code : BitVec 4) (s : State) : Host.Outcome State Fault Refusal :=
  .next (writeOpPred code s)

/-- Id 6 (30_encoding.md rule R82). -/
def execPredReserved6 (s : State) : Host.Outcome State Fault Refusal := writeReservedId 6 s

/-- Id 7. -/
def execPredReserved7 (s : State) : Host.Outcome State Fault Refusal := writeReservedId 7 s

/-- Id 8. -/
def execPredReserved8 (s : State) : Host.Outcome State Fault Refusal := writeReservedId 8 s

/-- Id 9. -/
def execPredReserved9 (s : State) : Host.Outcome State Fault Refusal := writeReservedId 9 s

/-- Id 10. -/
def execPredReserved10 (s : State) : Host.Outcome State Fault Refusal := writeReservedId 10 s

/-- Id 11. -/
def execPredReserved11 (s : State) : Host.Outcome State Fault Refusal := writeReservedId 11 s

/-- Id 12. -/
def execPredReserved12 (s : State) : Host.Outcome State Fault Refusal := writeReservedId 12 s

/-- Id 13. -/
def execPredReserved13 (s : State) : Host.Outcome State Fault Refusal := writeReservedId 13 s

/-- Id 14. -/
def execPredReserved14 (s : State) : Host.Outcome State Fault Refusal := writeReservedId 14 s

/-- Id 15. -/
def execPredReserved15 (s : State) : Host.Outcome State Fault Refusal := writeReservedId 15 s

/-! ### Mode codes -/

/-- A mode code at G.OP_MODE is written there; at the select input of the sign mapper, the mapped G.OP_VALUE
appears at its output; at the inverse mapper, the value of the mapped number appears
(41_sign_mapping.md rule R115). -/
def selectMode (mode : SignMode) (place : ModePlace) (s : State) : Host.Outcome State Fault Refusal :=
  match place with
  | .operand => .next (writeOpMode mode s)
  | .forward => .next (s.setProbe { s.probe with n := signMap mode s.g.opValue })
  | .inverse => .next (s.setProbe { s.probe with v := signUnmap mode s.probe.n })

/-- Code 0, SIGN_MAGNITUDE (41_sign_mapping.md rule R116). -/
def execModeSignMagnitude (place : ModePlace) (s : State) : Host.Outcome State Fault Refusal :=
  selectMode .signMagnitude place s

/-- Code 1, INTERLEAVING (41_sign_mapping.md rules R117, R118). -/
def execModeInterleaving (place : ModePlace) (s : State) : Host.Outcome State Fault Refusal :=
  selectMode .interleaving place s

/-! ### Outcome codes -/

/-- Code 0, OK: an operation of the unit ends normally (60_exceptions.md rule R235). -/
def execErrOk (u : UnitId) (s : State) : Host.Outcome State Fault Refusal := .next (s.deliver u .ok)

/-- Code 1: `raise INVALID_PARAMETER` (60_exceptions.md rules R236, R241). -/
def execErrInvalidParameter (u : UnitId) (s : State) : Host.Outcome State Fault Refusal :=
  .next (s.deliver u .invalidParameter)

/-- Code 2: `raise INVALID_SHAPE` (60_exceptions.md rules R237, R241). -/
def execErrInvalidShape (u : UnitId) (s : State) : Host.Outcome State Fault Refusal :=
  .next (s.deliver u .invalidShape)

/-- Code 3: `raise MALFORMED` (60_exceptions.md rules R238, R241). -/
def execErrMalformed (u : UnitId) (s : State) : Host.Outcome State Fault Refusal :=
  .next (s.deliver u .malformed)

end Sys2Proof.Machine
end

