-- ==== Sys2Proof/Machine/Dispatch.lean ====
section
/-! DEFINITION. One arm per instruction, each one call of its meaning. -/

namespace Sys2Proof.Machine

def exec (i : Instr) (s : State) : Host.Outcome State Fault Refusal :=
  match i with
  | .gConstruct => Sys2Proof.Machine.execGConstruct s
  | .gSetm => Sys2Proof.Machine.execGSetm s
  | .gEncode => Sys2Proof.Machine.execGEncode s
  | .gEncodeto => Sys2Proof.Machine.execGEncodeto s
  | .gDecode => Sys2Proof.Machine.execGDecode s
  | .gBitstostr => Sys2Proof.Machine.execGBitstostr s
  | .iConstruct => Sys2Proof.Machine.execIConstruct s
  | .iEncode => Sys2Proof.Machine.execIEncode s
  | .iDecode => Sys2Proof.Machine.execIDecode s
  | .reservedCmd0110 => Sys2Proof.Machine.execReservedCmd0110 s
  | .reservedCmd0111 => Sys2Proof.Machine.execReservedCmd0111 s
  | .reservedCmd1011 => Sys2Proof.Machine.execReservedCmd1011 s
  | .reservedCmd1100 => Sys2Proof.Machine.execReservedCmd1100 s
  | .reservedCmd1101 => Sys2Proof.Machine.execReservedCmd1101 s
  | .reservedCmd1110 => Sys2Proof.Machine.execReservedCmd1110 s
  | .reservedCmd1111 => Sys2Proof.Machine.execReservedCmd1111 s
  | .predPrev place => Sys2Proof.Machine.execPredPrev place s
  | .predAbove place => Sys2Proof.Machine.execPredAbove place s
  | .predAverage place => Sys2Proof.Machine.execPredAverage place s
  | .predPaeth place => Sys2Proof.Machine.execPredPaeth place s
  | .predJpegLs place => Sys2Proof.Machine.execPredJpegLs place s
  | .predGradient place => Sys2Proof.Machine.execPredGradient place s
  | .predReserved6 => Sys2Proof.Machine.execPredReserved6 s
  | .predReserved7 => Sys2Proof.Machine.execPredReserved7 s
  | .predReserved8 => Sys2Proof.Machine.execPredReserved8 s
  | .predReserved9 => Sys2Proof.Machine.execPredReserved9 s
  | .predReserved10 => Sys2Proof.Machine.execPredReserved10 s
  | .predReserved11 => Sys2Proof.Machine.execPredReserved11 s
  | .predReserved12 => Sys2Proof.Machine.execPredReserved12 s
  | .predReserved13 => Sys2Proof.Machine.execPredReserved13 s
  | .predReserved14 => Sys2Proof.Machine.execPredReserved14 s
  | .predReserved15 => Sys2Proof.Machine.execPredReserved15 s
  | .modeSignMagnitude place => Sys2Proof.Machine.execModeSignMagnitude place s
  | .modeInterleaving place => Sys2Proof.Machine.execModeInterleaving place s
  | .errOk u => Sys2Proof.Machine.execErrOk u s
  | .errInvalidParameter u => Sys2Proof.Machine.execErrInvalidParameter u s
  | .errInvalidShape u => Sys2Proof.Machine.execErrInvalidShape u s
  | .errMalformed u => Sys2Proof.Machine.execErrMalformed u s
  | .frameHeader w h m p r => Sys2Proof.Machine.execFrameHeader w h m p r s
  | .codeword m n => Sys2Proof.Machine.execCodeword m n s

end Sys2Proof.Machine
end

