-- ==== Sys2Proof/Machine/Fetch.lean ====
section
/-! DEFINITION. Taking the next request: the block fetches no instruction stream (30_encoding.md rule R70);
a word is taken from the host's queue and decoded under the divisor in force. -/

namespace Sys2Proof.Machine

/-- What the sequencer finds when it looks for the next request. -/
inductive Fetched where
  /-- no request: the sequencer is idle (70_reset_and_hazards.md rule R265) -/
  | idle
  /-- the host has written a register or a buffer, or reset the block -/
  | host (s : State)
  /-- a word, decoded, and the state with the word taken -/
  | word (d : Except DecodeError Instr) (s : State)

/-- Take the next request. -/
def fetch (s : State) : Fetched :=
  match s.inbox with
  | [] => .idle
  | .word p :: rest => .word (decode s.g.m.toNat p) (s.setInbox rest)
  | r :: rest => .host (hostWrite r (s.setInbox rest))

/-- What a word that is no instruction does: bits that end inside a codeword are MALFORMED
(30_encoding.md rule R88); a reserved id selects no function and is refused (44_predictor.md rule R163). -/
def rejectWord (e : DecodeError) (s : State) : Host.Outcome State Fault Refusal :=
  match e with
  | .truncatedCodeword => rejectTruncated s
  | .noPredictor id => .refused (.noPredictorSelected id)

end Sys2Proof.Machine
end

