-- ==== Sys2Proof/Machine/Step.lean ====
section
/-! DEFINITION. One step of the machine: one request taken, an operation run from start to end
(10_state.md rule R10, 20_memory.md rule R56). -/

namespace Sys2Proof.Machine

/-- One step. -/
def step (s : State) : Host.Outcome State Fault Refusal :=
  match fetch s with
  | .idle => .next s
  | .host s' => .next s'
  | .word (.ok i) s' => exec i s'
  | .word (.error e) s' => rejectWord e s'

/-- `s` with the table word `w` of `nbits` bits presented as the next request; `s` itself where the
table has no word of that width (notes/assumptions/2.md). -/
def State.withFetchWord (s : State) (nbits w : Nat) : State :=
  match tableWord nbits w with
  | some p => s.setInbox (.word p :: s.inbox)
  | none => s

end Sys2Proof.Machine
end

