-- ==== Sys2Proof/Safety.lean ====
section
/-! DEFINITION. What counts as a good state, and the parts of the state that a statement says are kept. -/

namespace Sys2Proof.Machine

/-- The G unit's divisor is never 0, G.B and G.T are derived from it, and the parameter state is READY at
every operation boundary (10_state.md rules R11, R12, R13, R16). -/
abbrev GUnit.inv (g : GUnit) : Prop :=
  1 ≤ g.m.toNat ∧ g.b.toNat = clog2 g.m.toNat ∧ g.t.toNat = threshold g.m.toNat ∧ g.pstate = .ready

/-- The invariant of the machine: the G unit's parameters agree and the raster is in canonical form. -/
abbrev State.inv (s : State) : Prop := s.g.inv ∧ s.pix.wf

/-- The configuration registers of the G unit are the same in both states. -/
abbrev gConfigKept (s t : State) : Prop :=
  t.g.valid = s.g.valid ∧ t.g.m = s.g.m ∧ t.g.b = s.g.b ∧ t.g.t = s.g.t ∧ t.g.mode = s.g.mode ∧
    t.g.pstate = s.g.pstate

/-- The operand registers of the G unit are the same. -/
abbrev gOperandsKept (s t : State) : Prop :=
  t.g.opM = s.g.opM ∧ t.g.opMode = s.g.opMode ∧ t.g.opValue = s.g.opValue ∧ t.g.opPos = s.g.opPos

/-- The result registers of G.DECODE are the same. -/
abbrev gDecodeResultsKept (s t : State) : Prop :=
  t.g.resValue = s.g.resValue ∧ t.g.resConsumed = s.g.resConsumed

/-- The result registers G.CW and G.STR are the same. -/
abbrev gTextResultsKept (s t : State) : Prop := t.g.cw = s.g.cw ∧ t.g.str = s.g.str

/-- The configuration registers of the I unit are the same. -/
abbrev iConfigKept (s t : State) : Prop := t.i.valid = s.i.valid ∧ t.i.pred = s.i.pred

/-- The operand registers of the I unit are the same. -/
abbrev iOperandsKept (s t : State) : Prop :=
  t.i.opPred = s.i.opPred ∧ t.i.opW = s.i.opW ∧ t.i.opH = s.i.opH ∧ t.i.opLen = s.i.opLen

/-- Every bit of the BIT space reads as before, and it has the same length. -/
abbrev bitsKept (s t : State) : Prop :=
  t.bit.length = s.bit.length ∧ ∀ j : Nat, t.bit[j]? = s.bit[j]?

/-- Every address of the raster reads as before. -/
abbrev rasterKept (s t : State) : Prop := ∀ a : Nat, t.pix.read a = s.pix.read a

/-- The model's own fields that a request can be seen in: the queue and the probe. (The counter of free
values is the model's bookkeeping and no statement speaks of it.) -/
abbrev ownKept (s t : State) : Prop := t.inbox = s.inbox ∧ t.probe = s.probe

/-- Everything outside the G unit's registers is kept. -/
abbrev keptOutsideG (s t : State) : Prop :=
  t.i = s.i ∧ t.fr = s.fr ∧ bitsKept s t ∧ rasterKept s t ∧ ownKept s t

/-- Of everything, only G.ERR may have changed. -/
abbrev onlyGErrChanged (s t : State) : Prop :=
  gConfigKept s t ∧ gOperandsKept s t ∧ gDecodeResultsKept s t ∧ gTextResultsKept s t ∧ keptOutsideG s t

/-- Of everything, only I.ERR and the transient registers may have changed. -/
abbrev onlyIOutcomeChanged (s t : State) : Prop :=
  t.g = s.g ∧ iConfigKept s t ∧ iOperandsKept s t ∧ bitsKept s t ∧ rasterKept s t ∧ ownKept s t

/-- The raster holds a sample at every address below `n`. -/
abbrev rasterHolds (m : Memory) (n : Nat) : Prop := ∀ a : Nat, a < n → (m.read a).isSome = true

/-- The sample at an address as a number; 0 where there is none (used only where there is one). -/
def sample (m : Memory) (a : Nat) : Nat := ((m.read a).getD 0).toNat

/-- The west, north and north-west neighbours as 44_predictor.md rule R155 gives them, over a raster that
holds them. -/
def westOf (m : Memory) (W x y : Nat) : Int := if x = 0 then 0 else sample m (y * W + (x - 1))

/-- The north neighbour. -/
def northOf (m : Memory) (W x y : Nat) : Int := if y = 0 then 0 else sample m ((y - 1) * W + x)

/-- The north-west neighbour. -/
def northWestOf (m : Memory) (W x y : Nat) : Int :=
  if x = 0 ∨ y = 0 then 0 else sample m ((y - 1) * W + (x - 1))

/-- The prediction for the pixel (x, y) of a raster. -/
def predictionAt (pred : Predictor) (m : Memory) (W x y : Nat) : Int :=
  predict pred (westOf m W x y) (northOf m W x y) (northWestOf m W x y)

/-- Executing `i` in `s` answers a next state, and `Q` holds of it. -/
def completesWith (i : Instr) (s : State) (Q : State → Prop) : Prop :=
  ∃ t, exec i s = .next t ∧ Q t

/-- The operands W and H of an image operation are legal dimensions (47_image_encode.md rule R197). -/
abbrev dimsLegal (s : State) : Prop :=
  1 ≤ s.i.opW ∧ s.i.opW ≤ 65535 ∧ 1 ≤ s.i.opH ∧ s.i.opH ≤ 65535

/-- I.DECODE in `s` ends with the outcome `k`, and apart from the raster below W * H, I.ERR and the
transient registers everything is kept. -/
def iDecodeEnds (k : ErrCode) (s : State) : Prop :=
  completesWith .iDecode s fun t =>
    t.i.err = k ∧ t.g = s.g ∧ iConfigKept s t ∧ iOperandsKept s t ∧ bitsKept s t ∧ ownKept s t ∧
      ∀ a : Nat, s.i.opW * s.i.opH ≤ a → t.pix.read a = s.pix.read a

/-- The fields of a header fit their widths (30_encoding.md rule R79). -/
abbrev headerFits (hd : Header) : Prop :=
  hd.w < 65536 ∧ hd.h < 65536 ∧ hd.m < 65536 ∧ hd.p < 16 ∧ hd.r < 4096

/-- The bits of residuals `rs` coded one after another under the divisor `m` (30_encoding.md rule R84). -/
def residualBits (m : Nat) (rs : List Int) : BitSeq := rs.flatMap (fun r => encodeSym r m .interleaving)

/-- `lo` is the least and `hi` the greatest value of a predictor over neighbours in 0 to 255. -/
def predictorRange (f : Int → Int → Int → Int) (lo hi : Int) : Prop :=
  (∀ l a c : Int, 0 ≤ l → l ≤ 255 → 0 ≤ a → a ≤ 255 → 0 ≤ c → c ≤ 255 → lo ≤ f l a c ∧ f l a c ≤ hi) ∧
  (∃ l a c : Int, (0 ≤ l ∧ l ≤ 255) ∧ (0 ≤ a ∧ a ≤ 255) ∧ (0 ≤ c ∧ c ≤ 255) ∧ f l a c = lo) ∧
  ∃ l a c : Int, (0 ≤ l ∧ l ≤ 255) ∧ (0 ≤ a ∧ a ≤ 255) ∧ (0 ≤ c ∧ c ≤ 255) ∧ f l a c = hi

/-- `lo` is the least and `hi` the greatest residual of a predictor over 8-bit samples. -/
def residualRange (f : Int → Int → Int → Int) (lo hi : Int) : Prop :=
  predictorRange f (255 - hi) (0 - lo) ∧
  ∀ (v : Nat) (l a c : Int), v ≤ 255 → 0 ≤ l → l ≤ 255 → 0 ≤ a → a ≤ 255 → 0 ≤ c → c ≤ 255 →
    lo ≤ residualOf v (f l a c) ∧ residualOf v (f l a c) ≤ hi

end Sys2Proof.Machine
end

