-- ==== Sys2Proof/WellFormed.lean ====
section
/-! DEFINITION. Which instruction terms the spec gives as legal encodings. -/

namespace Sys2Proof

/-- The fields of a header have legal values on encode (30_encoding.md rule R80). -/
def wellFormedHeader (w h m : BitVec 16) (p : BitVec 4) (r : BitVec 12) : Bool :=
  decide (1 ≤ w.toNat) && decide (1 ≤ h.toNat) && decide (1 ≤ m.toNat) && decide (p.toNat ≤ 5) &&
    decide (r = 0)

/-- The legal instructions: a reserved command names no operation (30_encoding.md rule R87), a reserved
predictor id selects no predictor (rule R82), a codeword has a divisor in 1 to M_MAX (10_state.md rule
R11), and no G operation ends with INVALID_SHAPE (60_exceptions.md rule R237). -/
def wellFormed : Instr → Bool
  | .gConstruct | .gSetm | .gEncode | .gEncodeto | .gDecode | .gBitstostr => true
  | .iConstruct | .iEncode | .iDecode => true
  | .reservedCmd0110 | .reservedCmd0111 | .reservedCmd1011 | .reservedCmd1100 => false
  | .reservedCmd1101 | .reservedCmd1110 | .reservedCmd1111 => false
  | .predPrev _ | .predAbove _ | .predAverage _ | .predPaeth _ | .predJpegLs _ | .predGradient _ => true
  | .predReserved6 | .predReserved7 | .predReserved8 | .predReserved9 | .predReserved10 => false
  | .predReserved11 | .predReserved12 | .predReserved13 | .predReserved14 | .predReserved15 => false
  | .modeSignMagnitude _ | .modeInterleaving _ => true
  | .errOk _ | .errInvalidParameter _ | .errMalformed _ => true
  | .errInvalidShape u => decide (u = .iUnit)
  | .frameHeader w h m p r => wellFormedHeader w h m p r
  | .codeword m _ => decide (1 ≤ m) && decide (m ≤ Config.mMax)

end Sys2Proof
end

