-- ==== Sys2Proof/Certificates/Slice0/Obligations.lean ====
section
/-! DEFINITION. The statements for the provers. Each docstring names the rule of spec/ it comes from. -/

open Sys2Proof Sys2Proof.Machine

/-! ### Encodings -/

/-- Decoding the word of an instruction under the divisor in force gives the instruction back, with every
operand at every value; a codeword is read under its own divisor (30_encoding.md rules R71, R78, R79, R81,
R85, R86, R87; 60_exceptions.md rule R235). -/
def Obligations.DecodeOfEncode : Prop :=
  ∀ (i : Instr) (m : Nat), (∀ m' n, i = .codeword m' n → m' = m ∧ 1 ≤ m) → decode m (encode i) = .ok i

/-- Every word of a fixed-width format that decodes is the word of the instruction it decodes to: no bit of
a command, selector, outcome or header word is dropped (30_encoding.md rules R79, R81, R85, R86, R87). -/
def Obligations.EncodeOfDecodeFixedWidth : Prop :=
  ∀ (p : PortWord) (m : Nat) (i : Instr), (∀ S, p ≠ .codeword S) → decode m p = .ok i → encode i = p

/-- Words written out from the tables of 30_encoding.md rules R71, R79, R81, R82, R85, R86, R87 and
60_exceptions.md rule R235 decode to their rows, each at the place it stands at. Two clauses are the model's
choice: that the number 9 in one byte is read as a command, though it is a PRED4 number too
(notes/assumptions/2.md), and that a predictor id at the multiplexer is an instruction of its own
(notes/assumptions/3.md). -/
def Obligations.KnownWordsDecode : Prop :=
  decode 1 (.cmd 0b0100) = .ok .gDecode ∧ decode 1 (.cmd 0b1010) = .ok .iDecode ∧
  decode 1 (.cmd 0b1011) = .ok .reservedCmd1011 ∧
  decode 1 (.pred .select 0b0011) = .ok (.predPaeth .select) ∧
  decode 1 (.pred .operand 0b0110) = .ok .predReserved6 ∧
  decode 1 (.mode .operand 0b1) = .ok (.modeInterleaving .operand) ∧
  decode 1 (.err .iUnit 0b10) = .ok (.errInvalidShape .iUnit) ∧
  decode 1 (.header 0x0280_01E0_0007_4000) = .ok (.frameHeader 640 480 7 4 0) ∧
  decode 5 (.codeword [true, false, false, true]) = .ok (.codeword 5 6) ∧
  decodeTableWord 8 0x9 = some .iEncode

/-- The codeword of n under m has the length of the length law, and never fewer bits than one
(30_encoding.md rule R76). -/
def Obligations.CodewordLengthLaw : Prop :=
  ∀ n m : Nat, 1 ≤ m →
    (codewordBits n m).length =
        n / m + 1 + (if n % m < 2 ^ clog2 m - m then clog2 m - 1 else clog2 m) ∧
      1 ≤ (codewordBits n m).length

/-- For a fixed divisor no codeword is a prefix of another (30_encoding.md rule R78). -/
def Obligations.CodewordsPrefixFree : Prop :=
  ∀ n n' m : Nat, 1 ≤ m → codewordBits n m <+: codewordBits n' m → n = n'

/-- The header as one 64-bit number has the header's bits, most significant first (30_encoding.md rule
R79), and the header bits read back as the fields that were written (rule R80), whatever follows. -/
def Obligations.HeaderBitsAndFields : Prop :=
  (∀ (w h m : BitVec 16) (p : BitVec 4) (r : BitVec 12),
    bitsOf (headerWord w h m p r).toNat 64 =
      Header.toBits { w := w.toNat, h := h.toNat, m := m.toNat, p := p.toNat, r := r.toNat }) ∧
  ∀ (hd : Header) (S : BitSeq), headerFits hd →
    hd.toBits.length = 64 ∧ readHeader (hd.toBits ++ S) = some hd

/-- The packing contract: bit i of a sequence is bit 7 - i mod 8 of byte i / 8, the bits past the end are zero,
and unpacking gives the sequence back followed by fewer than 8 zeros (20_memory.md rule R44). -/
def Obligations.PackingContract : Prop :=
  ∀ S : BitSeq,
    (packBytes S).length = (S.length + 7) / 8 ∧
    (∀ (i : Nat) (v : Byte), (packBytes S)[i / 8]? = some v →
      v.getLsbD (7 - i % 8) = (S[i]?).getD false) ∧
    ∃ k, k < 8 ∧ unpackBytes (packBytes S) = S ++ List.replicate k false

/-- `clog2 m` is the least exponent whose power of two reaches m (40_golomb_config.md rule R100), and
`t = 2^b - m` is 0 exactly at the powers of two and below 2^(b-1) (10_state.md rule R13). -/
def Obligations.DerivedParameters : Prop :=
  ∀ m : Nat, 1 ≤ m →
    m ≤ 2 ^ clog2 m ∧ (∀ k, m ≤ 2 ^ k → clog2 m ≤ k) ∧ threshold m + m = 2 ^ clog2 m ∧
    (1 ≤ clog2 m → threshold m < 2 ^ (clog2 m - 1)) ∧ (threshold m = 0 ↔ ∃ k, m = 2 ^ k)

/-! ### The symbol coder -/

/-- Both halves of the round trip: what the encoder writes decodes to the value and the length, wherever it
stands; and a decoded symbol is the codeword of its value, under INTERLEAVING always and under
SIGN_MAGNITUDE unless the decoded n was 1 (43_golomb_decode.md rule R147). -/
def Obligations.SymbolRoundTrip : Prop :=
  (∀ (v : Int) (m : Nat) (mode : SignMode) (S1 S2 : BitSeq), 1 ≤ m →
    decodeSym (S1 ++ encodeSym v m mode ++ S2) S1.length m mode =
      some (v, (encodeSym v m mode).length)) ∧
  (∀ (S : BitSeq) (pos m : Nat) (v : Int) (k : Nat), 1 ≤ m →
    decodeSym S pos m .interleaving = some (v, k) →
      encodeSym v m .interleaving = (S.drop pos).take k) ∧
  ∀ (S : BitSeq) (pos m n : Nat) (v : Int) (k k' : Nat), 1 ≤ m →
    readSymbol S pos m = some (n, k') → n ≠ 1 →
    decodeSym S pos m .signMagnitude = some (v, k) →
      encodeSym v m .signMagnitude = (S.drop pos).take k

/-- The decoded remainder is always below the divisor, so the check `r ≥ m` is dead
(43_golomb_decode.md rule R143). -/
def Obligations.RemainderInRange : Prop :=
  ∀ (S : BitSeq) (p m r k : Nat), 1 ≤ m → readRemainder S p m = some (r, k) → r < m

/-- The inverse mappings undo the mappings; INTERLEAVING is a bijection; under SIGN_MAGNITUDE n = 1 alone
is not an image, and decodes to 0 (41_sign_mapping.md rules R116, R117, R118). -/
def Obligations.SignMappingsInverse : Prop :=
  (∀ v : Int, signMagInv (signMag v) = v ∧ interleaveInv (interleave v) = v) ∧
  (∀ n : Nat, interleave (interleaveInv n) = n) ∧
  (∀ n : Nat, n ≠ 1 → signMag (signMagInv n) = n) ∧
  (signMagInv 1 = 0 ∧ ∀ v : Int, signMag v ≠ 1)

/-- A smaller magnitude maps to a smaller number under both modes (41_sign_mapping.md rule R120). -/
def Obligations.SignMappingsOrdered : Prop :=
  ∀ (mode : SignMode) (v1 v2 : Int), v1.natAbs < v2.natAbs → signMap mode v1 < signMap mode v2

/-- Symbols written one after another, each under its own divisor, decode one after another when the cursor
advances by bitsConsumed and the same divisors are used (43_golomb_decode.md rule R149). -/
def Obligations.StreamDecodesSymbolBySymbol : Prop :=
  ∀ (mode : SignMode) (L : List (Int × Nat)) (tail : BitSeq) (i : Nat) (h : i < L.length),
    (∀ p ∈ L, 1 ≤ p.2) →
    decodeSym (L.flatMap (fun p => encodeSym p.1 p.2 mode) ++ tail)
        ((L.take i).flatMap (fun p => encodeSym p.1 p.2 mode)).length L[i].2 mode =
      some (L[i].1, (encodeSym L[i].1 L[i].2 mode).length)

/-! ### The operations of the G unit -/

/-- G.CONSTRUCT: its command code, its error, its refusal and its effect (40_golomb_config.md rule R102).
That a divisor above 65535, and no smaller one, is refused is the model's choice of M_MAX
(notes/assumptions/20.md). -/
def Obligations.GConstructEffect : Prop :=
  encode .gConstruct = .cmd 0b0000 ∧
  ∀ s : State,
    (s.g.opM = 0 →
      completesWith .gConstruct s fun t => t.g.err = .invalidParameter ∧ onlyGErrChanged s t) ∧
    (65535 < s.g.opM → exec .gConstruct s = .refused (.divisorTooLarge s.g.opM)) ∧
    (1 ≤ s.g.opM → s.g.opM ≤ 65535 →
      completesWith .gConstruct s fun t =>
        t.g.m.toNat = s.g.opM ∧ t.g.b.toNat = clog2 s.g.opM ∧
        t.g.t.toNat + s.g.opM = 2 ^ clog2 s.g.opM ∧ t.g.mode = s.g.opMode ∧ t.g.pstate = .ready ∧
        t.g.valid = true ∧ t.g.err = .ok ∧
        gOperandsKept s t ∧ gDecodeResultsKept s t ∧ gTextResultsKept s t ∧ keptOutsideG s t)

/-- G.SETM: its command code, its refusals, its error and its effect (40_golomb_config.md rule R103). That a
divisor above 65535, and no smaller one, is refused is the model's choice of M_MAX
(notes/assumptions/20.md); that the result registers other than G.ERR are kept, with an error and without,
is the model's deduction (notes/assumptions/30.md). -/
def Obligations.GSetmEffect : Prop :=
  encode .gSetm = .cmd 0b0001 ∧
  ∀ s : State,
    (s.g.valid = false → exec .gSetm s = .refused (.notConstructed .gUnit)) ∧
    (s.g.valid = true → s.g.opM = 0 →
      completesWith .gSetm s fun t => t.g.err = .invalidParameter ∧ onlyGErrChanged s t) ∧
    (s.g.valid = true → 65535 < s.g.opM → exec .gSetm s = .refused (.divisorTooLarge s.g.opM)) ∧
    (s.g.valid = true → 1 ≤ s.g.opM → s.g.opM ≤ 65535 →
      completesWith .gSetm s fun t =>
        t.g.m.toNat = s.g.opM ∧ t.g.b.toNat = clog2 s.g.opM ∧
        t.g.t.toNat + s.g.opM = 2 ^ clog2 s.g.opM ∧ t.g.mode = s.g.mode ∧ t.g.pstate = .ready ∧
        t.g.valid = true ∧ t.g.err = .ok ∧
        gOperandsKept s t ∧ gDecodeResultsKept s t ∧ gTextResultsKept s t ∧ keptOutsideG s t)

/-- G.ENCODE, all of it (42_golomb_encode.md rule R126): the whole codeword replaces G.CW, and no bit of the
BIT space is written. -/
def Obligations.GEncodeEffect : Prop :=
  encode .gEncode = .cmd 0b0010 ∧
  ∀ s : State,
    (s.g.valid = false → exec .gEncode s = .refused (.notConstructed .gUnit)) ∧
    (s.g.valid = true →
      completesWith .gEncode s fun t =>
        t.g.cw = encodeSym s.g.opValue s.g.m.toNat s.g.mode ∧ t.g.err = .ok ∧ t.g.str = s.g.str ∧
        gConfigKept s t ∧ gOperandsKept s t ∧ gDecodeResultsKept s t ∧ keptOutsideG s t)

/-- G.ENCODETO (42_golomb_encode.md rule R127): the codeword stands at the old end of the sink, every earlier
bit is kept, and G.CW is not written. -/
def Obligations.GEncodetoEffect : Prop :=
  encode .gEncodeto = .cmd 0b0011 ∧
  ∀ s : State,
    (s.g.valid = false → exec .gEncodeto s = .refused (.notConstructed .gUnit)) ∧
    (s.g.valid = true →
      completesWith .gEncodeto s fun t =>
        t.bit.length = s.bit.length + (encodeSym s.g.opValue s.g.m.toNat s.g.mode).length ∧
        (∀ j : Nat, j < s.bit.length → t.bit[j]? = s.bit[j]?) ∧
        (∀ j : Nat, t.bit[s.bit.length + j]? = (encodeSym s.g.opValue s.g.m.toNat s.g.mode)[j]?) ∧
        t.g.err = .ok ∧ gConfigKept s t ∧ gOperandsKept s t ∧ gDecodeResultsKept s t ∧
        gTextResultsKept s t ∧ t.i = s.i ∧ t.fr = s.fr ∧ rasterKept s t ∧ ownKept s t)

/-- G.DECODE of a source that holds a symbol's codeword at G.OP_POS, with anything before and after it: the
value and its length (43_golomb_decode.md rules R140, R147). -/
def Obligations.GDecodeOfEncodedSymbol : Prop :=
  ∀ (s : State) (v : Int) (S1 S2 : BitSeq),
    s.g.valid = true → 1 ≤ s.g.m.toNat → s.bit = S1 ++ encodeSym v s.g.m.toNat s.g.mode ++ S2 →
    s.g.opPos = S1.length →
    completesWith .gDecode s fun t =>
      t.g.resValue = v ∧ t.g.resConsumed = (encodeSym v s.g.m.toNat s.g.mode).length ∧
      t.g.err = .ok ∧ gConfigKept s t ∧ gOperandsKept s t ∧ gTextResultsKept s t ∧ keptOutsideG s t

/-- G.DECODE where the source ends inside, or before, the codeword at G.OP_POS: MALFORMED
(43_golomb_decode.md rule R145), with nothing said of its two result registers and the configuration and
the memories kept (60_exceptions.md rule R241). That G.CW and G.STR, the results of other operations, are
kept too is the model's deduction (notes/assumptions/30.md). -/
def Obligations.GDecodeMalformedWhenCut : Prop :=
  ∀ (s : State) (n : Nat),
    s.g.valid = true → 1 ≤ s.g.m.toNat → s.bit.drop s.g.opPos <+: codewordBits n s.g.m.toNat →
    (s.bit.drop s.g.opPos).length < (codewordBits n s.g.m.toNat).length →
    completesWith .gDecode s fun t =>
      t.g.err = .malformed ∧ gConfigKept s t ∧ gOperandsKept s t ∧ gTextResultsKept s t ∧
      keptOutsideG s t

/-- G.BITSTOSTR (42_golomb_encode.md rule R131): one character per bit, nothing else changed, and the string
determines the bits. -/
def Obligations.GBitstostrEffect : Prop :=
  encode .gBitstostr = .cmd 0b0101 ∧
  (∀ s : State,
    (s.g.valid = false → exec .gBitstostr s = .refused (.notConstructed .gUnit)) ∧
    (s.g.valid = true →
      completesWith .gBitstostr s fun t =>
        t.g.str.length = s.bit.length ∧
        (∀ (j : Nat) (b : Bool), s.bit[j]? = some b → t.g.str[j]? = some (if b then '1' else '0')) ∧
        t.g.err = .ok ∧ t.g.cw = s.g.cw ∧ gConfigKept s t ∧ gOperandsKept s t ∧
        gDecodeResultsKept s t ∧ keptOutsideG s t)) ∧
  ∀ S S' : BitSeq, bitsToString S = bitsToString S' → S = S'

/-- Results of the G unit depend on G.M and G.MODE and the operands, and on nothing else of the unit's
history (40_golomb_config.md rule R105). -/
def Obligations.ParameterStability : Prop :=
  ∀ s s' : State,
    s.g.valid = true → s'.g.valid = true → s.g.m = s'.g.m → s.g.mode = s'.g.mode →
    s.g.opValue = s'.g.opValue → s.g.opPos = s'.g.opPos → s.bit = s'.bit →
    (∃ t t', exec .gEncode s = .next t ∧ exec .gEncode s' = .next t' ∧ t.g.cw = t'.g.cw) ∧
    (∃ t t', exec .gEncodeto s = .next t ∧ exec .gEncodeto s' = .next t' ∧ t.bit = t'.bit) ∧
    ∃ t t', exec .gDecode s = .next t ∧ exec .gDecode s' = .next t' ∧ t.g.err = t'.g.err ∧
      (t.g.err = .ok → t.g.resValue = t'.g.resValue ∧ t.g.resConsumed = t'.g.resConsumed)

/-- What G.ENCODETO appends is what G.ENCODE would have left in G.CW (42_golomb_encode.md rule R128). -/
def Obligations.EncodetoAppendsEncodeResult : Prop :=
  ∀ s : State, s.g.valid = true →
    ∃ t u, exec .gEncodeto s = .next t ∧ exec .gEncode s = .next u ∧ t.bit = s.bit ++ u.g.cw

/-! ### Predictors, residuals and the estimator -/

/-- Least and greatest prediction, and least and greatest residual, of the six predictors
(44_predictor.md rule R164). -/
def Obligations.PredictorRanges : Prop :=
  (predictorRange predictPrev 0 255 ∧ residualRange predictPrev (-255) 255) ∧
  (predictorRange predictAbove 0 255 ∧ residualRange predictAbove (-255) 255) ∧
  (predictorRange predictAverage 0 255 ∧ residualRange predictAverage (-255) 255) ∧
  (predictorRange predictPaeth 0 255 ∧ residualRange predictPaeth (-255) 255) ∧
  (predictorRange predictJpegLs (-255) 510 ∧ residualRange predictJpegLs (-510) 510) ∧
  (predictorRange predictGradient (-127) 382 ∧ residualRange predictGradient (-382) 382)

/-- Predictions on the border of every raster: at (0, 0), on the first row and in the first column
(44_predictor.md rule R165). -/
def Obligations.BorderPredictions : Prop :=
  ∀ (m : Memory) (W : Nat),
    (∀ (pred : Predictor) (v : Nat), predictionAt pred m W 0 0 = 0 ∧
      residualOf v (predictionAt pred m W 0 0) = v) ∧
    (∀ x : Nat, 0 < x →
      predictionAt .prev m W x 0 = sample m (x - 1) ∧ predictionAt .above m W x 0 = 0 ∧
      predictionAt .average m W x 0 = (sample m (x - 1) / 2 : Nat) ∧
      predictionAt .paeth m W x 0 = sample m (x - 1) ∧
      predictionAt .jpegLs m W x 0 = sample m (x - 1) ∧
      predictionAt .gradient m W x 0 = sample m (x - 1)) ∧
    ∀ y : Nat, 0 < y →
      predictionAt .prev m W 0 y = 0 ∧ predictionAt .above m W 0 y = sample m ((y - 1) * W) ∧
      predictionAt .average m W 0 y = (sample m ((y - 1) * W) / 2 : Nat) ∧
      predictionAt .paeth m W 0 y = sample m ((y - 1) * W) ∧
      predictionAt .jpegLs m W 0 y = sample m ((y - 1) * W) ∧
      predictionAt .gradient m W 0 y = (sample m ((y - 1) * W) / 2 : Nat)

/-- PAETH picks the one of L, A, C closest to L + A - C, ties in the order L, A, C
(44_predictor.md rule R160). -/
def Obligations.PaethPicksClosest : Prop :=
  ∀ l a c : Int, let p := l + a - c; let q := predictPaeth l a c
    ((p - q).natAbs ≤ (p - l).natAbs ∧ (p - q).natAbs ≤ (p - a).natAbs ∧
      (p - q).natAbs ≤ (p - c).natAbs) ∧
    (q = l ∨ q = a ∨ q = c) ∧
    ((p - l).natAbs = (p - q).natAbs → q = l) ∧
    ((p - l).natAbs ≠ (p - q).natAbs → (p - a).natAbs = (p - q).natAbs → q = a)

/-- The reconstruction adder saturates, and undoes the residual of every sample under every prediction
(45_residual.md rules R176, R178). -/
def Obligations.ReconstructionClampsAndInverts : Prop :=
  (∀ p res : Int,
    (p + res < 0 → reconstruct p res = 0) ∧ (255 < p + res → reconstruct p res = 255) ∧
    (0 ≤ p + res → p + res ≤ 255 → ((reconstruct p res).toNat : Int) = p + res)) ∧
  ∀ (v : Byte) (p : Int), reconstruct p (residualOf v.toNat p) = v

/-- The estimator is the largest k of the exact integer form (46_param_select.md rule R187): the numbers that
fit are an initial segment, every number above the result does not fit, and the result fits unless it is
the 1 of `max(1, .)`. -/
def Obligations.SelectMIsLargestFit : Prop :=
  ∀ res : List Int,
    (sumAbs res = 0 → selectM res = 1) ∧
    (0 < sumAbs res →
      1 ≤ selectM res ∧
      (∀ k, selectM res < k →
        4 * sumAbs res ^ (2 * k - 1) < (sumAbs res + res.length) ^ (2 * k - 1)) ∧
      (selectM res = 1 ∨
        (sumAbs res + res.length) ^ (2 * selectM res - 1) ≤ 4 * sumAbs res ^ (2 * selectM res - 1)) ∧
      ∀ k k', 1 ≤ k → k ≤ k' →
        (sumAbs res + res.length) ^ (2 * k' - 1) ≤ 4 * sumAbs res ^ (2 * k' - 1) →
        (sumAbs res + res.length) ^ (2 * k - 1) ≤ 4 * sumAbs res ^ (2 * k - 1))

/-- The integer estimator computes the real formula: 1 where the mean is under 10^-10, and otherwise the
larger of 1 and m* = -1 / log2 (1 - p), p = 1 / (mu + 1), rounded to nearest with halves upward
(46_param_select.md rules R185, R186), for every residual sequence an image can have. -/
def Obligations.SelectMComputesRealFormula : Prop :=
  ∀ res : List Int, 0 < res.length → res.length ≤ 65535 * 65535 →
    ((sumAbs res : ℝ) / res.length < 1 / 10 ^ 10 → selectM res = 1) ∧
    (1 / 10 ^ 10 ≤ (sumAbs res : ℝ) / res.length →
      (selectM res : ℤ) =
        max 1 ⌊-1 / Real.logb 2 (1 - 1 / ((sumAbs res : ℝ) / res.length + 1)) + 1 / 2⌋)

/-- The range of the estimator, per bound on the residuals (46_param_select.md rule R188; the bounds per
predictor are those of 44_predictor.md rule R164). -/
def Obligations.SelectMRange : Prop :=
  ∀ res : List Int,
    1 ≤ selectM res ∧
    ((∀ r ∈ res, r.natAbs ≤ 255) → selectM res ≤ 177) ∧
    ((∀ r ∈ res, r.natAbs ≤ 382) → selectM res ≤ 265) ∧
    ((∀ r ∈ res, r.natAbs ≤ 510) → selectM res ≤ 354)

/-! ### The operations of the I unit -/

/-- I.CONSTRUCT, all of it: its command code, its refusal and its effect (47_image_encode.md rule R195). -/
def Obligations.IConstructEffect : Prop :=
  encode .iConstruct = .cmd 0b1000 ∧
  ∀ s : State,
    (5 < s.i.opPred.toNat → exec .iConstruct s = .refused (.reservedPredictor s.i.opPred)) ∧
    (s.i.opPred.toNat ≤ 5 →
      completesWith .iConstruct s fun t =>
        t.i.pred.code = s.i.opPred ∧ t.i.valid = true ∧ t.i.err = .ok ∧ iOperandsKept s t ∧
        t.g = s.g ∧ t.fr = s.fr ∧ bitsKept s t ∧ rasterKept s t ∧ ownKept s t)

/-- I.ENCODE with an empty sink and an illegal shape: INVALID_SHAPE, the raster and all other registers that
live between operations kept; nothing is said of the sink afterwards (47_image_encode.md rule R197;
20_memory.md rule R60). That it is so for a raster with samples missing too is the model's choice
(notes/assumptions/19.md). -/
def Obligations.IEncodeInvalidShape : Prop :=
  ∀ s : State, s.i.valid = true → s.bit = [] →
    (s.i.opW = 0 ∨ s.i.opH = 0 ∨ 65535 < s.i.opW ∨ 65535 < s.i.opH ∨ s.i.opW * s.i.opH ≠ s.i.opLen) →
    completesWith .iEncode s fun t =>
      t.i.err = .invalidShape ∧ t.g = s.g ∧ iConfigKept s t ∧ iOperandsKept s t ∧ rasterKept s t ∧
      ownKept s t

/-- I.ENCODE of a legal image: the sink holds the header and then, in raster order, the codeword of every
residual under the divisor the estimator chooses from all of them, and nothing else; the raster and every
other register that lives between operations is kept (47_image_encode.md rules R196, R198 to R201). -/
def Obligations.IEncodeWritesFrame : Prop :=
  ∀ s : State, s.i.valid = true → dimsLegal s → s.i.opW * s.i.opH = s.i.opLen → s.bit = [] →
    rasterHolds s.pix (s.i.opW * s.i.opH) →
    completesWith .iEncode s fun t =>
      (∃ res : List Int,
        res.length = s.i.opW * s.i.opH ∧
        (∀ x y : Nat, x < s.i.opW → y < s.i.opH →
          res[y * s.i.opW + x]? =
            some ((sample s.pix (y * s.i.opW + x) : Int) -
              predictionAt s.i.pred s.pix s.i.opW x y)) ∧
        t.bit =
          bitsOf s.i.opW 16 ++ bitsOf s.i.opH 16 ++ bitsOf (selectM res) 16 ++
            bitsOf s.i.pred.code.toNat 4 ++ bitsOf 0 12 ++ residualBits (selectM res) res) ∧
      t.i.err = .ok ∧ t.g = s.g ∧ iConfigKept s t ∧ iOperandsKept s t ∧ rasterKept s t ∧ ownKept s t

/-- The host failures of I.ENCODE: a sink that is not empty is refused, whatever the operands
(70_reset_and_hazards.md rule R275; 93_implementation_defined.md U17; before the shape checks, as
92_eei_decisions.md D17 orders refusals), and with a legal shape a raster with a sample missing stops the
machine at a missing sample (U12; that this is a fault and comes after the shape checks is the model's
choice, notes/assumptions/12.md, 19.md). -/
def Obligations.IEncodeHostFailures : Prop :=
  ∀ s : State, s.i.valid = true →
    (s.bit ≠ [] → exec .iEncode s = .refused .sinkNotEmpty) ∧
    (s.bit = [] → dimsLegal s → s.i.opW * s.i.opH = s.i.opLen →
      (∃ a, a < s.i.opW * s.i.opH ∧ s.pix.read a = none) →
      ∃ a, a < s.i.opW * s.i.opH ∧ s.pix.read a = none ∧ exec .iEncode s = .fault (.sampleAbsent a))

/-- I.DECODE of a frame with an accepted header and at least W * H codewords, whatever follows: every sample
is the clamped sum of its residual and the prediction from the reconstructed neighbours, every address
outside the raster and everything else that lives between operations is kept (48_image_decode.md rules R219, R221, R223; 45_residual.md
rule R176). -/
def Obligations.IDecodeReconstructs : Prop :=
  ∀ (s : State) (m : Nat) (rs : List Int) (tail : BitSeq),
    s.i.valid = true → dimsLegal s → 1 ≤ m → m ≤ 65535 → rs.length = s.i.opW * s.i.opH →
    s.bit =
      Header.toBits { w := s.i.opW, h := s.i.opH, m := m, p := s.i.pred.code.toNat, r := 0 } ++
        (residualBits m rs ++ tail) →
    completesWith .iDecode s fun t =>
      (∀ x y : Nat, x < s.i.opW → y < s.i.opH →
        ∃ r, rs[y * s.i.opW + x]? = some r ∧
          t.pix.read (y * s.i.opW + x) =
            some (clamp255 (predictionAt s.i.pred t.pix s.i.opW x y + r))) ∧
      (∀ a : Nat, s.i.opW * s.i.opH ≤ a → t.pix.read a = s.pix.read a) ∧
      t.i.err = .ok ∧ t.g = s.g ∧ iConfigKept s t ∧ iOperandsKept s t ∧ bitsKept s t ∧ ownKept s t

/-- The cursor of I.DECODE: from 64, where the header ends, it advances by every symbol's length, so that after
the last pixel it is the length of the frame proper, whatever follows and whatever the raster held
(48_image_decode.md rule R221; 10_state.md rule R22). -/
def Obligations.CursorEndsAtFrameEnd : Prop :=
  ∀ (pred : Predictor) (W H m : Nat) (rs : List Int) (header tail : BitSeq) (raster : Memory),
    1 ≤ W → 1 ≤ m → rs.length = W * H → header.length = 64 →
    ∃ out, decodePass pred (header ++ (residualBits m rs ++ tail)) W m (W * H) (0, 0) 64 raster =
      .done (header ++ residualBits m rs).length out

/-- I.DECODE with an operand dimension of zero or above 65535 ends with INVALID_SHAPE, whatever the source
holds (48_image_decode.md rule R216). That the raster from address W * H on is kept is the model's choice
(notes/assumptions/15.md). -/
def Obligations.IDecodeInvalidShape : Prop :=
  ∀ s : State, s.i.valid = true →
    (s.i.opW = 0 ∨ s.i.opH = 0 ∨ 65535 < s.i.opW ∨ 65535 < s.i.opH) → iDecodeEnds .invalidShape s

/-- The header checks of I.DECODE and what each reports: a source shorter than 64 bits, a field that
disagrees or a reserved field that is not zero is MALFORMED; m = 0 in an otherwise accepted header is
INVALID_PARAMETER, whatever the body (48_image_decode.md rules R217, R218; 60_exceptions.md rule R240). The
reserved-field and predictor-id causes rest on notes/assumptions/23.md; that the raster from address W * H
on is kept is the model's choice (notes/assumptions/15.md). -/
def Obligations.IDecodeHeaderChecks : Prop :=
  ∀ s : State, s.i.valid = true → dimsLegal s →
    (s.bit.length < 64 → iDecodeEnds .malformed s) ∧
    ∀ (hd : Header) (S : BitSeq), headerFits hd → s.bit = hd.toBits ++ S →
      ((hd.w ≠ s.i.opW ∨ hd.h ≠ s.i.opH ∨ 5 < hd.p ∨ hd.p ≠ s.i.pred.code.toNat ∨ hd.r ≠ 0) →
        iDecodeEnds .malformed s) ∧
      (hd.w = s.i.opW → hd.h = s.i.opH → hd.p = s.i.pred.code.toNat → hd.r = 0 → hd.m = 0 →
        iDecodeEnds .invalidParameter s)

/-- I.DECODE of a frame whose body ends inside, or before, the codeword of some pixel ends with MALFORMED
(48_image_decode.md rule R222). That the raster from address W * H on is kept is the model's choice
(notes/assumptions/15.md). -/
def Obligations.IDecodeTruncatedBody : Prop :=
  ∀ (s : State) (m n : Nat) (rs : List Int) (cut : BitSeq),
    s.i.valid = true → dimsLegal s → 1 ≤ m → m ≤ 65535 → rs.length < s.i.opW * s.i.opH →
    cut <+: codewordBits n m → cut.length < (codewordBits n m).length →
    s.bit =
      Header.toBits { w := s.i.opW, h := s.i.opH, m := m, p := s.i.pred.code.toNat, r := 0 } ++
        (residualBits m rs ++ cut) →
    iDecodeEnds .malformed s

/-- The image round trip: what I.ENCODE wrote with outcome OK, followed by any bits, decodes on a unit with
the same predictor and operands to the same samples (48_image_decode.md rule R224). -/
def Obligations.ImageRoundTrip : Prop :=
  ∀ (s t u : State) (tail : BitSeq),
    exec .iEncode s = .next t → t.i.err = .ok →
    u.i.valid = true → u.i.pred = s.i.pred → u.i.opW = s.i.opW → u.i.opH = s.i.opH →
    u.bit = t.bit ++ tail →
    completesWith .iDecode u fun v =>
      v.i.err = .ok ∧ ∀ a : Nat, a < s.i.opW * s.i.opH → v.pix.read a = s.pix.read a

/-- The frame is a function of the predictor, the shape and the samples: two units that agree on these write
the same bits, whatever else differs (47_image_encode.md rule R204). -/
def Obligations.FrameDependsOnImageOnly : Prop :=
  ∀ s s' t t' : State,
    s.i.pred = s'.i.pred → s.i.opW = s'.i.opW → s.i.opH = s'.i.opH →
    (∀ a : Nat, a < s.i.opW * s.i.opH → s.pix.read a = s'.pix.read a) →
    exec .iEncode s = .next t → t.i.err = .ok → exec .iEncode s' = .next t' → t'.i.err = .ok →
    t.bit = t'.bit

/-- The decoded samples and the outcome are functions of the predictor, the shape and the source, whatever
the raster held before (48_image_decode.md rule R226). -/
def Obligations.ImageDependsOnFrameOnly : Prop :=
  ∀ s s' : State,
    s.i.valid = true → s'.i.valid = true → s.i.pred = s'.i.pred → s.i.opW = s'.i.opW →
    s.i.opH = s'.i.opH → s.bit = s'.bit →
    ∃ t t', exec .iDecode s = .next t ∧ exec .iDecode s' = .next t' ∧ t.i.err = t'.i.err ∧
      (t.i.err = .ok →
        ∀ a : Nat, a < s.i.opW * s.i.opH → t.pix.read a = t'.pix.read a)

/-! ### Selector, outcome and stream words -/

/-- A predictor id standing at I.OP_PRED is written there; at the multiplexer's select input the prediction
of the neighbour window is shown and no register of the block changes (44_predictor.md rules R157 to R163; that the words
are executed so on their own is the model's choice, notes/assumptions/3.md). -/
def Obligations.PredictorWords : Prop :=
  (∀ s : State, ∀ e ∈ [(Instr.predPrev .operand, 0), (.predAbove .operand, 1),
      (.predAverage .operand, 2), (.predPaeth .operand, 3), (.predJpegLs .operand, 4),
      (.predGradient .operand, 5)],
    completesWith e.1 s fun t =>
      t.i.opPred.toNat = e.2 ∧ t.i.opW = s.i.opW ∧ t.i.opH = s.i.opH ∧ t.i.opLen = s.i.opLen ∧
      iConfigKept s t ∧ t.i.err = s.i.err ∧ t.g = s.g ∧ t.fr = s.fr ∧ bitsKept s t ∧
      rasterKept s t ∧ ownKept s t) ∧
  ∀ (s : State) (l a c : Nat), s.fr.l.toNat = l → s.fr.a.toNat = a → s.fr.c.toNat = c →
    ∀ e ∈ [(Instr.predPrev .select, (l : Int)), (.predAbove .select, (a : Int)),
        (.predAverage .select, ((l + a) / 2 : Nat)), (.predPaeth .select, predictPaeth l a c),
        (.predJpegLs .select, (l : Int) + a - c),
        (.predGradient .select,
          if c ≤ a then (l : Int) + ((a - c) / 2 : Nat) else (l : Int) - ((c - a) / 2 : Nat))],
      completesWith e.1 s fun t =>
        t.probe.p = e.2 ∧ t.probe.n = s.probe.n ∧ t.probe.v = s.probe.v ∧ t.g = s.g ∧ t.i = s.i ∧
        t.fr = s.fr ∧ bitsKept s t ∧ rasterKept s t ∧ t.inbox = s.inbox

/-- A reserved predictor id can be written to I.OP_PRED, and I.CONSTRUCT then refuses it
(30_encoding.md rule R82; 47_image_encode.md rule R195; the word on its own is the model's choice,
notes/assumptions/3.md). -/
def Obligations.ReservedPredictorWords : Prop :=
  ∀ s : State, ∀ e ∈ [(Instr.predReserved6, (6 : BitVec 4)), (.predReserved7, 7),
      (.predReserved8, 8), (.predReserved9, 9), (.predReserved10, 10), (.predReserved11, 11),
      (.predReserved12, 12), (.predReserved13, 13), (.predReserved14, 14), (.predReserved15, 15)],
    completesWith e.1 s fun t =>
      t.i.opPred = e.2 ∧ exec .iConstruct t = .refused (.reservedPredictor e.2) ∧
      t.i.opW = s.i.opW ∧ t.i.opH = s.i.opH ∧ t.i.opLen = s.i.opLen ∧ iConfigKept s t ∧
      t.i.err = s.i.err ∧ t.g = s.g ∧ t.fr = s.fr ∧ bitsKept s t ∧ rasterKept s t ∧ ownKept s t

/-- A mode code at G.OP_MODE is written there; at the sign mapper the mapped operand value is shown, and at
the inverse mapper the value of the mapped number (41_sign_mapping.md rules R115 to R118; the words on
their own are the model's choice, notes/assumptions/4.md). -/
def Obligations.ModeWords : Prop :=
  ∀ s : State,
    (∀ e ∈ [(Instr.modeSignMagnitude .operand, SignMode.signMagnitude),
        (.modeInterleaving .operand, .interleaving)],
      completesWith e.1 s fun t =>
        t.g.opMode = e.2 ∧ t.g.opM = s.g.opM ∧ t.g.opValue = s.g.opValue ∧ t.g.opPos = s.g.opPos ∧
        gConfigKept s t ∧ gDecodeResultsKept s t ∧ gTextResultsKept s t ∧ t.g.err = s.g.err ∧
        keptOutsideG s t) ∧
    (∀ e ∈ [(Instr.modeSignMagnitude .forward,
          2 * s.g.opValue.natAbs + (if s.g.opValue < 0 then 1 else 0)),
        (.modeInterleaving .forward,
          if 0 ≤ s.g.opValue then 2 * s.g.opValue.natAbs else 2 * s.g.opValue.natAbs - 1)],
      completesWith e.1 s fun t =>
        t.probe.n = e.2 ∧ t.probe.p = s.probe.p ∧ t.probe.v = s.probe.v ∧ t.g = s.g ∧ t.i = s.i ∧
        t.fr = s.fr ∧ bitsKept s t ∧ rasterKept s t ∧ t.inbox = s.inbox) ∧
    ∀ v : Int,
      (s.probe.n = signMag v →
        completesWith (.modeSignMagnitude .inverse) s fun t =>
          t.probe.v = v ∧ t.probe.p = s.probe.p ∧ t.probe.n = s.probe.n ∧ t.g = s.g ∧ t.i = s.i ∧
          t.fr = s.fr ∧ bitsKept s t ∧ rasterKept s t ∧ t.inbox = s.inbox) ∧
      (s.probe.n = interleave v →
        completesWith (.modeInterleaving .inverse) s fun t =>
          t.probe.v = v ∧ t.probe.p = s.probe.p ∧ t.probe.n = s.probe.n ∧ t.g = s.g ∧ t.i = s.i ∧
          t.fr = s.fr ∧ bitsKept s t ∧ rasterKept s t ∧ t.inbox = s.inbox)

/-- An outcome code is delivered in the ERR register of its unit, and nothing else changes
(60_exceptions.md rules R235, R241; the word on its own is the model's choice, notes/assumptions/5.md). -/
def Obligations.OutcomeWords : Prop :=
  ∀ s : State,
    (∀ e ∈ [(Instr.errOk .gUnit, (0 : BitVec 2)), (.errInvalidParameter .gUnit, 1),
        (.errInvalidShape .gUnit, 2), (.errMalformed .gUnit, 3)],
      completesWith e.1 s fun t => t.g.err.code = e.2 ∧ onlyGErrChanged s t) ∧
    ∀ e ∈ [(Instr.errOk .iUnit, (0 : BitVec 2)), (.errInvalidParameter .iUnit, 1),
        (.errInvalidShape .iUnit, 2), (.errMalformed .iUnit, 3)],
      completesWith e.1 s fun t => t.i.err.code = e.2 ∧ t.fr = s.fr ∧ onlyIOutcomeChanged s t

/-- A header at the header reader of a constructed I unit with legal operands: accepted, it sets the frame's
registers; otherwise it reports the outcome of the first failing check (48_image_decode.md rules R217, R218;
the word on its own is the model's choice, notes/assumptions/6.md). -/
def Obligations.HeaderWord : Prop :=
  ∀ (s : State) (w h m : BitVec 16) (p : BitVec 4) (r : BitVec 12),
    s.i.valid = true → dimsLegal s →
    (w.toNat = s.i.opW → h.toNat = s.i.opH → p = s.i.pred.code → r = 0 → m ≠ 0 →
      completesWith (.frameHeader w h m p r) s fun t =>
        t.fr.w = w ∧ t.fr.h = h ∧ t.fr.gm = m ∧ t.fr.gb.toNat = clog2 m.toNat ∧
        t.fr.gt.toNat + m.toNat = 2 ^ clog2 m.toNat ∧ t.fr.cur = 64 ∧ t.fr.x = 0 ∧ t.fr.y = 0 ∧
        t.fr.l = s.fr.l ∧ t.fr.a = s.fr.a ∧ t.fr.c = s.fr.c ∧ t.fr.res = s.fr.res ∧
        t.fr.sumabs = s.fr.sumabs ∧ t.i.err = .ok ∧ onlyIOutcomeChanged s t) ∧
    (w.toNat = s.i.opW → h.toNat = s.i.opH → p = s.i.pred.code → r = 0 → m = 0 →
      completesWith (.frameHeader w h m p r) s fun t =>
        t.i.err = .invalidParameter ∧ t.fr = s.fr ∧ onlyIOutcomeChanged s t) ∧
    ((w.toNat ≠ s.i.opW ∨ h.toNat ≠ s.i.opH ∨ p ≠ s.i.pred.code ∨ r ≠ 0) →
      completesWith (.frameHeader w h m p r) s fun t =>
        t.i.err = .malformed ∧ t.fr = s.fr ∧ onlyIOutcomeChanged s t)

/-- A codeword at the decoder of a constructed G unit: under its own divisor it gives its value and its
length; under another one it still ends with OK or MALFORMED (30_encoding.md rule R75, 43_golomb_decode.md rules
R144, R146; the word on its own is the model's choice, notes/assumptions/7.md). -/
def Obligations.CodewordWord : Prop :=
  ∀ (s : State) (m n : Nat), s.g.valid = true →
    (1 ≤ m → s.g.m.toNat = m →
      completesWith (.codeword m n) s fun t =>
        t.g.resValue = signUnmap s.g.mode n ∧ t.g.resConsumed = codewordLen n m ∧ t.g.err = .ok ∧
        gConfigKept s t ∧ gOperandsKept s t ∧ gTextResultsKept s t ∧ keptOutsideG s t) ∧
    (s.g.m.toNat ≠ m →
      completesWith (.codeword m n) s fun t =>
        (t.g.err = .ok ∨ t.g.err = .malformed) ∧ gConfigKept s t ∧ gOperandsKept s t ∧
        gTextResultsKept s t ∧ keptOutsideG s t)

/-! ### Refusals and errors -/

/-- The reserved command codes are refused in every state, and a request with one of their words has no step
(30_encoding.md rule R87; 60_exceptions.md rule R248). -/
def Obligations.ReservedCommandsRefused : Prop :=
  ∀ s : State, ∀ e ∈ [(Instr.reservedCmd0110, (0b0110 : BitVec 4)), (.reservedCmd0111, 0b0111),
      (.reservedCmd1011, 0b1011), (.reservedCmd1100, 0b1100), (.reservedCmd1101, 0b1101),
      (.reservedCmd1110, 0b1110), (.reservedCmd1111, 0b1111)],
    exec e.1 s = .refused (.reservedCommand e.2) ∧
    ∀ rest, s.inbox = .word (.cmd e.2) :: rest → step s = .refused (.reservedCommand e.2)

/-- An operation on a unit that is not constructed is refused (60_exceptions.md rule R248, first row), and so
is a word at the decoder or header reader of such a unit (the model's choice, notes/assumptions/6.md, 7.md). -/
def Obligations.UnconstructedRefused : Prop :=
  ∀ s : State,
    (s.g.valid = false →
      ∀ i ∈ [Instr.gSetm, .gEncode, .gEncodeto, .gDecode, .gBitstostr],
        exec i s = .refused (.notConstructed .gUnit)) ∧
    (s.g.valid = false → ∀ m n, exec (.codeword m n) s = .refused (.notConstructed .gUnit)) ∧
    (s.i.valid = false →
      ∀ i ∈ [Instr.iEncode, .iDecode], exec i s = .refused (.notConstructed .iUnit)) ∧
    (s.i.valid = false →
      ∀ w h m p r, exec (.frameHeader w h m p r) s = .refused (.notConstructed .iUnit))

/-- INVALID_PARAMETER, every cause and no other, over the nine operations (60_exceptions.md rule R236). For
I.DECODE a header divisor of 0 is reported where no earlier check fails (48_image_decode.md rules R217, R218;
60_exceptions.md rule R240); that a predictor id other than I.PRED and a reserved field other than 0 are
such checks rests on notes/assumptions/23.md. -/
def Obligations.InvalidParameterCauses : Prop :=
  ∀ s t : State,
    (∀ i ∈ [Instr.gConstruct, .gSetm], exec i s = .next t →
      (t.g.err = .invalidParameter ↔ s.g.opM = 0)) ∧
    (∀ i ∈ [Instr.gEncode, .gEncodeto, .gDecode, .gBitstostr], exec i s = .next t →
      t.g.err ≠ .invalidParameter) ∧
    (∀ i ∈ [Instr.iConstruct, .iEncode], exec i s = .next t → t.i.err ≠ .invalidParameter) ∧
    (exec .iDecode s = .next t →
      (t.i.err = .invalidParameter ↔
        dimsLegal s ∧ ∃ hd, readHeader s.bit = some hd ∧ hd.w = s.i.opW ∧ hd.h = s.i.opH ∧
          hd.p = s.i.pred.code.toNat ∧ hd.r = 0 ∧ hd.m = 0))

/-- INVALID_SHAPE, every cause and no other, over the nine operations (60_exceptions.md rule R237). -/
def Obligations.InvalidShapeCauses : Prop :=
  ∀ s t : State,
    (exec .iEncode s = .next t →
      (t.i.err = .invalidShape ↔
        s.i.opW = 0 ∨ s.i.opH = 0 ∨ 65535 < s.i.opW ∨ 65535 < s.i.opH ∨
          s.i.opW * s.i.opH ≠ s.i.opLen)) ∧
    (exec .iDecode s = .next t →
      (t.i.err = .invalidShape ↔
        s.i.opW = 0 ∨ s.i.opH = 0 ∨ 65535 < s.i.opW ∨ 65535 < s.i.opH)) ∧
    (exec .iConstruct s = .next t → t.i.err ≠ .invalidShape) ∧
    ∀ i ∈ [Instr.gConstruct, .gSetm, .gEncode, .gEncodeto, .gDecode, .gBitstostr],
      exec i s = .next t → t.g.err ≠ .invalidShape

/-- MALFORMED is reported only by the two operations that read a bit source, and by G.DECODE exactly where no
complete symbol stands at G.OP_POS (60_exceptions.md rule R238). -/
def Obligations.MalformedOnlyFromSources : Prop :=
  ∀ s t : State,
    (∀ i ∈ [Instr.gConstruct, .gSetm, .gEncode, .gEncodeto, .gBitstostr], exec i s = .next t →
      t.g.err ≠ .malformed) ∧
    (∀ i ∈ [Instr.iConstruct, .iEncode], exec i s = .next t → t.i.err ≠ .malformed) ∧
    (1 ≤ s.g.m.toNat → exec .gDecode s = .next t →
      (t.g.err = .malformed ↔
        ¬ ∃ (n : Nat) (tail : BitSeq), s.bit.drop s.g.opPos = codewordBits n s.g.m.toNat ++ tail))

/-- An operation that ends in an error leaves the configuration of both units and its input memory as they
were (60_exceptions.md rule R241, points 4 and 5). -/
def Obligations.ErrorsKeepConfiguration : Prop :=
  ∀ s t : State,
    (∀ i ∈ [Instr.gConstruct, .gSetm, .gEncode, .gEncodeto, .gDecode, .gBitstostr],
      exec i s = .next t → t.g.err ≠ .ok →
        gConfigKept s t ∧ iConfigKept s t ∧ bitsKept s t ∧ rasterKept s t) ∧
    (exec .iConstruct s = .next t → t.i.err = .ok) ∧
    (exec .iEncode s = .next t → t.i.err ≠ .ok →
      gConfigKept s t ∧ iConfigKept s t ∧ rasterKept s t) ∧
    (exec .iDecode s = .next t → t.i.err ≠ .ok →
      gConfigKept s t ∧ iConfigKept s t ∧ bitsKept s t)

/-! ### The whole machine -/

/-- Who writes the configuration: the divisor and its derived values only G.CONSTRUCT and G.SETM, the mode
and G.VALID only G.CONSTRUCT, the predictor and I.VALID only I.CONSTRUCT (10_state.md rules R11, R14, R15,
R18, R19; 60_exceptions.md rule R247). -/
def Obligations.ConfigurationWriters : Prop :=
  ∀ (i : Instr) (s t : State), exec i s = .next t →
    (i ≠ .gConstruct → i ≠ .gSetm →
      t.g.m = s.g.m ∧ t.g.b = s.g.b ∧ t.g.t = s.g.t ∧ t.g.pstate = s.g.pstate) ∧
    (i ≠ .gConstruct → t.g.mode = s.g.mode ∧ t.g.valid = s.g.valid) ∧
    (i ≠ .iConstruct → t.i.pred = s.i.pred ∧ t.i.valid = s.i.valid)

/-- The image operations neither read nor write the G unit, and the Golomb operations neither read nor write
the I unit: replacing the other unit's registers changes nothing but those registers
(10_state.md rule R10). -/
def Obligations.UnitsIndependent : Prop :=
  (∀ i ∈ [Instr.iConstruct, .iEncode, .iDecode], ∀ (s t : State) (g : GUnit),
    exec i s = .next t → t.g = s.g ∧ exec i (s.setG g) = .next (t.setG g)) ∧
  ∀ i ∈ [Instr.gConstruct, .gSetm, .gEncode, .gEncodeto, .gDecode, .gBitstostr],
    ∀ (s t : State) (u : IUnit) (fr : Transients),
      exec i s = .next t →
        t.i = s.i ∧ t.fr = s.fr ∧ exec i ((s.setI u).setFr fr) = .next ((t.setI u).setFr fr)

/-- A step takes the next word and runs the instruction it decodes to under the divisor in force, with the
word taken from the queue and nothing else done around it (10_state.md rule R10; the queue is the model's,
notes/assumptions/1.md). -/
def Obligations.StepRunsDecodedInstruction : Prop :=
  ∀ (s : State) (p : PortWord) (rest : List Request) (i : Instr),
    s.inbox = .word p :: rest → decode s.g.m.toNat p = .ok i →
    step s = exec i { s with inbox := rest }

/-- What a step does beside running a decoded word: idle with no request (70_reset_and_hazards.md rule
R265), and a host write of an operand register or a buffer (10_state.md rules R17, R26; 20_memory.md rule
R59). The rest is the model's choice: the queue (notes/assumptions/1.md), a sequence given as bytes
(notes/assumptions/31.md), MALFORMED for a word whose bits end inside a codeword (notes/assumptions/7.md) and
the refusal of a word with a reserved id at the multiplexer (notes/assumptions/3.md). -/
def Obligations.StepServesHost : Prop :=
  ∀ (s : State) (rest : List Request),
    (s.inbox = [] → step s = .next s) ∧
    (∀ n : Nat,
      (s.inbox = .opM n :: rest →
        step s = .next { s with inbox := rest, g := { s.g with opM := n } }) ∧
      (s.inbox = .opPos n :: rest →
        step s = .next { s with inbox := rest, g := { s.g with opPos := n } }) ∧
      (s.inbox = .opW n :: rest →
        step s = .next { s with inbox := rest, i := { s.i with opW := n } }) ∧
      (s.inbox = .opH n :: rest →
        step s = .next { s with inbox := rest, i := { s.i with opH := n } }) ∧
      (s.inbox = .opLen n :: rest →
        step s = .next { s with inbox := rest, i := { s.i with opLen := n } })) ∧
    (∀ v : Int, s.inbox = .opValue v :: rest →
      step s = .next { s with inbox := rest, g := { s.g with opValue := v } }) ∧
    (∀ S : BitSeq, s.inbox = .bits S :: rest →
      step s = .next { s with inbox := rest, bit := S }) ∧
    (∀ B : List Byte, s.inbox = .packedBits B :: rest →
      step s = .next { s with inbox := rest, bit := B.flatMap (fun v => bitsOf v.toNat 8) }) ∧
    (∀ B : List Byte, s.inbox = .raster B :: rest →
      ∃ t, step s = .next t ∧ (∀ a : Nat, t.pix.read a = B[a]?) ∧ t.g = s.g ∧ t.i = s.i ∧
        t.fr = s.fr ∧ t.bit = s.bit ∧ t.inbox = rest ∧ t.probe = s.probe) ∧
    (∀ S : BitSeq, s.inbox = .word (.codeword S) :: rest → readSymbol S 0 s.g.m.toNat = none →
      s.g.valid = true →
      ∃ t, step s = .next t ∧ t.g.err = .malformed ∧ gConfigKept s t ∧ gOperandsKept s t ∧
        gTextResultsKept s t ∧ t.i = s.i ∧ bitsKept s t ∧ rasterKept s t ∧ t.inbox = rest) ∧
    ∀ id : BitVec 4, 5 < id.toNat → s.inbox = .word (.pred .select id) :: rest →
      step s = .refused (.noPredictorSelected id)

/-- What reset leaves, at power-on and when the host resets the block at an operation boundary: no unit is
constructed, the parameter state is READY, both outcomes are OK, and the two memories are not touched
(70_reset_and_hazards.md rule R265; 10_state.md rule R33). That the host's reset is a request in the queue
and leaves the requests behind it is the model's choice (notes/assumptions/1.md, 10.md). -/
def Obligations.ResetLeaves : Prop :=
  (State.reset.g.valid = false ∧ State.reset.i.valid = false ∧ State.reset.g.pstate = .ready ∧
    State.reset.g.err = .ok ∧ State.reset.i.err = .ok) ∧
  ∀ (s : State) (rest : List Request), s.inbox = .reset :: rest →
    ∃ t, step s = .next t ∧ t.g.valid = false ∧ t.i.valid = false ∧ t.g.pstate = .ready ∧
      t.g.err = .ok ∧ t.i.err = .ok ∧ bitsKept s t ∧ rasterKept s t ∧ t.inbox = rest

/-- The invariant holds after reset (10_state.md rules R11 to R13, R16; that the unconstructed unit already
agrees with itself rests on the model's reset values, notes/assumptions/9.md). -/
def Obligations.ResetMeetsInvariant : Prop := State.reset.inv

/-- Every step keeps the invariant: the divisor is never 0, G.B and G.T are derived from it, the parameter
state is READY, and the raster stays in canonical form (10_state.md rules R11, R12, R13, R16). -/
def Obligations.StepKeepsInvariant : Prop :=
  ∀ s t : State, s.inv → step s = .next t → t.inv
end

