-- ==== Sys2Proof/Laws/Memory.lean ====
section
/-! SUPPORT. The laws of the raster: reading after writing, and every operation keeps the canonical form. -/

namespace Sys2Proof.Machine

theorem Memory.read_write_same (m : Memory) (a : Nat) (v : Byte) : (m.write a v).read a = some v := by
  induction m with
  | nil => simp [Memory.write, Memory.read]
  | cons c m ih =>
    obtain ⟨b, u⟩ := c
    simp only [Memory.write]
    split
    · simp [Memory.read]
    · split
      · simp [Memory.read]
      · next h1 h2 => simp [Memory.read, h1, h2, ih]

theorem Memory.read_write_other (m : Memory) {a k : Nat} (v : Byte) (h : k ≠ a) :
    (m.write a v).read k = m.read k := by
  induction m with
  | nil => simp [Memory.write, Memory.read, h]
  | cons c m ih =>
    obtain ⟨b, u⟩ := c
    simp only [Memory.write]
    split
    · next h1 => subst h1; simp [Memory.read, h]
    · split
      · next h1 h2 =>
        simp only [Memory.read, h, if_false]
        split
        · next h3 =>
          rw [if_neg (by omega), if_pos (by omega)]
        · rfl
      · simp [Memory.read, ih]

/-- Every cell of a written raster is the new one or an old one. -/
theorem Memory.mem_write {m : Memory} {a : Nat} {v : Byte} {c : Host.Cell} (h : c ∈ m.write a v) :
    c = (a, v) ∨ c ∈ m := by
  induction m with
  | nil => simpa [Memory.write] using h
  | cons d m ih =>
    obtain ⟨b, u⟩ := d
    simp only [Memory.write] at h
    split at h
    · rcases List.mem_cons.1 h with h | h
      · exact .inl h
      · exact .inr (List.mem_cons_of_mem _ h)
    · split at h
      · exact (List.mem_cons.1 h).imp id id
      · rcases List.mem_cons.1 h with h | h
        · exact .inr (h ▸ List.mem_cons_self)
        · exact (ih h).imp id (List.mem_cons_of_mem _)

theorem Memory.wf_write {m : Memory} (hm : m.wf) (a : Nat) (v : Byte) : (m.write a v).wf := by
  induction m with
  | nil => simp [Memory.write, Memory.wf]
  | cons d m ih =>
    obtain ⟨b, u⟩ := d
    obtain ⟨hb, hm'⟩ := List.pairwise_cons.1 hm
    simp only [Memory.write]
    split
    · next h => exact List.pairwise_cons.2 ⟨fun c hc => h ▸ hb c hc, hm'⟩
    · split
      · next _ h2 =>
        refine List.pairwise_cons.2 ⟨fun c hc => ?_, hm⟩
        rcases List.mem_cons.1 hc with rfl | hc
        · exact h2
        · exact Nat.lt_trans h2 (hb c hc)
      · next h1 h2 =>
        refine List.pairwise_cons.2 ⟨fun c hc => ?_, ih hm'⟩
        rcases Memory.mem_write hc with rfl | hc
        · show b < a; omega
        · exact hb c hc

theorem Memory.le_of_mem_cellsFrom {B : List Byte} {a : Nat} {c : Host.Cell}
    (h : c ∈ Memory.cellsFrom a B) : a ≤ c.1 ∧ c.1 < a + B.length := by
  induction B generalizing a with
  | nil => simp [Memory.cellsFrom] at h
  | cons v B ih =>
    rcases List.mem_cons.1 h with rfl | h
    · simp
    · have := ih h
      simp only [List.length_cons]
      omega

theorem Memory.wf_cellsFrom (a : Nat) (B : List Byte) : (Memory.cellsFrom a B).wf := by
  induction B generalizing a with
  | nil => simp [Memory.cellsFrom, Memory.wf]
  | cons v B ih =>
    exact List.pairwise_cons.2 ⟨fun c hc => (Memory.le_of_mem_cellsFrom hc).1, ih (a + 1)⟩

theorem Memory.wf_ofBytes (B : List Byte) : (Memory.ofBytes B).wf := Memory.wf_cellsFrom 0 B

theorem Memory.wf_replaceBelow {m : Memory} (hm : m.wf) (n : Nat) (B : List Byte) :
    (m.replaceBelow n B).wf := by
  refine List.pairwise_append.2 ⟨Memory.wf_ofBytes _, hm.filter _, fun c hc d hd => ?_⟩
  have h1 := (Memory.le_of_mem_cellsFrom hc).2
  have h2 : n ≤ d.1 := by simpa using (List.mem_filter.1 hd).2
  have h3 := List.length_take_le n B
  omega

/-- Reading an address of a raster given as its bytes. -/
theorem Memory.read_cellsFrom (B : List Byte) (a j : Nat) :
    (Memory.cellsFrom a B).read (a + j) = B[j]? := by
  induction B generalizing a j with
  | nil => simp [Memory.cellsFrom, Memory.read]
  | cons v B ih =>
    cases j with
    | zero => simp [Memory.cellsFrom, Memory.read]
    | succ j =>
      have h := ih (a + 1) j
      simp only [Memory.cellsFrom, Memory.read]
      rw [if_neg (by omega), if_neg (by omega), show a + (j + 1) = a + 1 + j by omega, h]
      simp

theorem Memory.read_ofBytes (B : List Byte) (j : Nat) : (Memory.ofBytes B).read j = B[j]? := by
  have h := Memory.read_cellsFrom B 0 j
  rwa [Nat.zero_add] at h

theorem Memory.wf_hostWrite {s : State} (h : s.pix.wf) (r : Request) : (hostWrite r s).pix.wf := by
  cases r <;> first | exact h | exact Memory.wf_ofBytes _

end Sys2Proof.Machine
end

