-- ==== Sys2Proof/Laws/State.lean ====
section
/-! SUPPORT. One lemma per field per update of the state, each true by rfl. -/

namespace Sys2Proof.Machine

/-! ### State.setG -/

@[simp] theorem State.setG_g (v : GUnit) (s : State) : (s.setG v).g = v := rfl
@[simp] theorem State.setG_i (v : GUnit) (s : State) : (s.setG v).i = s.i := rfl
@[simp] theorem State.setG_fr (v : GUnit) (s : State) : (s.setG v).fr = s.fr := rfl
@[simp] theorem State.setG_bit (v : GUnit) (s : State) : (s.setG v).bit = s.bit := rfl
@[simp] theorem State.setG_pix (v : GUnit) (s : State) : (s.setG v).pix = s.pix := rfl
@[simp] theorem State.setG_inbox (v : GUnit) (s : State) : (s.setG v).inbox = s.inbox := rfl
@[simp] theorem State.setG_probe (v : GUnit) (s : State) : (s.setG v).probe = s.probe := rfl
@[simp] theorem State.setG_freeCtr (v : GUnit) (s : State) : (s.setG v).freeCtr = s.freeCtr := rfl

/-! ### State.setI -/

@[simp] theorem State.setI_g (v : IUnit) (s : State) : (s.setI v).g = s.g := rfl
@[simp] theorem State.setI_i (v : IUnit) (s : State) : (s.setI v).i = v := rfl
@[simp] theorem State.setI_fr (v : IUnit) (s : State) : (s.setI v).fr = s.fr := rfl
@[simp] theorem State.setI_bit (v : IUnit) (s : State) : (s.setI v).bit = s.bit := rfl
@[simp] theorem State.setI_pix (v : IUnit) (s : State) : (s.setI v).pix = s.pix := rfl
@[simp] theorem State.setI_inbox (v : IUnit) (s : State) : (s.setI v).inbox = s.inbox := rfl
@[simp] theorem State.setI_probe (v : IUnit) (s : State) : (s.setI v).probe = s.probe := rfl
@[simp] theorem State.setI_freeCtr (v : IUnit) (s : State) : (s.setI v).freeCtr = s.freeCtr := rfl

/-! ### State.setFr -/

@[simp] theorem State.setFr_g (v : Transients) (s : State) : (s.setFr v).g = s.g := rfl
@[simp] theorem State.setFr_i (v : Transients) (s : State) : (s.setFr v).i = s.i := rfl
@[simp] theorem State.setFr_fr (v : Transients) (s : State) : (s.setFr v).fr = v := rfl
@[simp] theorem State.setFr_bit (v : Transients) (s : State) : (s.setFr v).bit = s.bit := rfl
@[simp] theorem State.setFr_pix (v : Transients) (s : State) : (s.setFr v).pix = s.pix := rfl
@[simp] theorem State.setFr_inbox (v : Transients) (s : State) : (s.setFr v).inbox = s.inbox := rfl
@[simp] theorem State.setFr_probe (v : Transients) (s : State) : (s.setFr v).probe = s.probe := rfl
@[simp] theorem State.setFr_freeCtr (v : Transients) (s : State) : (s.setFr v).freeCtr = s.freeCtr := rfl

/-! ### State.setBit -/

@[simp] theorem State.setBit_g (v : BitSeq) (s : State) : (s.setBit v).g = s.g := rfl
@[simp] theorem State.setBit_i (v : BitSeq) (s : State) : (s.setBit v).i = s.i := rfl
@[simp] theorem State.setBit_fr (v : BitSeq) (s : State) : (s.setBit v).fr = s.fr := rfl
@[simp] theorem State.setBit_bit (v : BitSeq) (s : State) : (s.setBit v).bit = v := rfl
@[simp] theorem State.setBit_pix (v : BitSeq) (s : State) : (s.setBit v).pix = s.pix := rfl
@[simp] theorem State.setBit_inbox (v : BitSeq) (s : State) : (s.setBit v).inbox = s.inbox := rfl
@[simp] theorem State.setBit_probe (v : BitSeq) (s : State) : (s.setBit v).probe = s.probe := rfl
@[simp] theorem State.setBit_freeCtr (v : BitSeq) (s : State) : (s.setBit v).freeCtr = s.freeCtr := rfl

/-! ### State.setPix -/

@[simp] theorem State.setPix_g (v : Memory) (s : State) : (s.setPix v).g = s.g := rfl
@[simp] theorem State.setPix_i (v : Memory) (s : State) : (s.setPix v).i = s.i := rfl
@[simp] theorem State.setPix_fr (v : Memory) (s : State) : (s.setPix v).fr = s.fr := rfl
@[simp] theorem State.setPix_bit (v : Memory) (s : State) : (s.setPix v).bit = s.bit := rfl
@[simp] theorem State.setPix_pix (v : Memory) (s : State) : (s.setPix v).pix = v := rfl
@[simp] theorem State.setPix_inbox (v : Memory) (s : State) : (s.setPix v).inbox = s.inbox := rfl
@[simp] theorem State.setPix_probe (v : Memory) (s : State) : (s.setPix v).probe = s.probe := rfl
@[simp] theorem State.setPix_freeCtr (v : Memory) (s : State) : (s.setPix v).freeCtr = s.freeCtr := rfl

/-! ### State.setInbox -/

@[simp] theorem State.setInbox_g (v : List Request) (s : State) : (s.setInbox v).g = s.g := rfl
@[simp] theorem State.setInbox_i (v : List Request) (s : State) : (s.setInbox v).i = s.i := rfl
@[simp] theorem State.setInbox_fr (v : List Request) (s : State) : (s.setInbox v).fr = s.fr := rfl
@[simp] theorem State.setInbox_bit (v : List Request) (s : State) : (s.setInbox v).bit = s.bit := rfl
@[simp] theorem State.setInbox_pix (v : List Request) (s : State) : (s.setInbox v).pix = s.pix := rfl
@[simp] theorem State.setInbox_inbox (v : List Request) (s : State) : (s.setInbox v).inbox = v := rfl
@[simp] theorem State.setInbox_probe (v : List Request) (s : State) : (s.setInbox v).probe = s.probe := rfl
@[simp] theorem State.setInbox_freeCtr (v : List Request) (s : State) : (s.setInbox v).freeCtr = s.freeCtr := rfl

/-! ### State.setProbe -/

@[simp] theorem State.setProbe_g (v : Probe) (s : State) : (s.setProbe v).g = s.g := rfl
@[simp] theorem State.setProbe_i (v : Probe) (s : State) : (s.setProbe v).i = s.i := rfl
@[simp] theorem State.setProbe_fr (v : Probe) (s : State) : (s.setProbe v).fr = s.fr := rfl
@[simp] theorem State.setProbe_bit (v : Probe) (s : State) : (s.setProbe v).bit = s.bit := rfl
@[simp] theorem State.setProbe_pix (v : Probe) (s : State) : (s.setProbe v).pix = s.pix := rfl
@[simp] theorem State.setProbe_inbox (v : Probe) (s : State) : (s.setProbe v).inbox = s.inbox := rfl
@[simp] theorem State.setProbe_probe (v : Probe) (s : State) : (s.setProbe v).probe = v := rfl
@[simp] theorem State.setProbe_freeCtr (v : Probe) (s : State) : (s.setProbe v).freeCtr = s.freeCtr := rfl

/-! ### State.drawn -/

@[simp] theorem State.drawn_g (s : State) : s.drawn.g = s.g := rfl
@[simp] theorem State.drawn_i (s : State) : s.drawn.i = s.i := rfl
@[simp] theorem State.drawn_fr (s : State) : s.drawn.fr = s.fr := rfl
@[simp] theorem State.drawn_bit (s : State) : s.drawn.bit = s.bit := rfl
@[simp] theorem State.drawn_pix (s : State) : s.drawn.pix = s.pix := rfl
@[simp] theorem State.drawn_inbox (s : State) : s.drawn.inbox = s.inbox := rfl
@[simp] theorem State.drawn_probe (s : State) : s.drawn.probe = s.probe := rfl
@[simp] theorem State.drawn_freeCtr (s : State) : s.drawn.freeCtr = s.freeCtr + 1 := rfl

/-! ### State.deliver -/

@[simp] theorem State.deliver_gUnit_g_valid (k : ErrCode) (s : State) : (s.deliver .gUnit k).g.valid = s.g.valid := rfl
@[simp] theorem State.deliver_gUnit_g_m (k : ErrCode) (s : State) : (s.deliver .gUnit k).g.m = s.g.m := rfl
@[simp] theorem State.deliver_gUnit_g_b (k : ErrCode) (s : State) : (s.deliver .gUnit k).g.b = s.g.b := rfl
@[simp] theorem State.deliver_gUnit_g_t (k : ErrCode) (s : State) : (s.deliver .gUnit k).g.t = s.g.t := rfl
@[simp] theorem State.deliver_gUnit_g_mode (k : ErrCode) (s : State) : (s.deliver .gUnit k).g.mode = s.g.mode := rfl
@[simp] theorem State.deliver_gUnit_g_pstate (k : ErrCode) (s : State) : (s.deliver .gUnit k).g.pstate = s.g.pstate := rfl
@[simp] theorem State.deliver_gUnit_g_opM (k : ErrCode) (s : State) : (s.deliver .gUnit k).g.opM = s.g.opM := rfl
@[simp] theorem State.deliver_gUnit_g_opMode (k : ErrCode) (s : State) : (s.deliver .gUnit k).g.opMode = s.g.opMode := rfl
@[simp] theorem State.deliver_gUnit_g_opValue (k : ErrCode) (s : State) : (s.deliver .gUnit k).g.opValue = s.g.opValue := rfl
@[simp] theorem State.deliver_gUnit_g_opPos (k : ErrCode) (s : State) : (s.deliver .gUnit k).g.opPos = s.g.opPos := rfl
@[simp] theorem State.deliver_gUnit_g_resValue (k : ErrCode) (s : State) : (s.deliver .gUnit k).g.resValue = s.g.resValue := rfl
@[simp] theorem State.deliver_gUnit_g_resConsumed (k : ErrCode) (s : State) : (s.deliver .gUnit k).g.resConsumed = s.g.resConsumed := rfl
@[simp] theorem State.deliver_gUnit_g_cw (k : ErrCode) (s : State) : (s.deliver .gUnit k).g.cw = s.g.cw := rfl
@[simp] theorem State.deliver_gUnit_g_str (k : ErrCode) (s : State) : (s.deliver .gUnit k).g.str = s.g.str := rfl
@[simp] theorem State.deliver_gUnit_g_err (k : ErrCode) (s : State) : (s.deliver .gUnit k).g.err = k := rfl
@[simp] theorem State.deliver_gUnit_i (k : ErrCode) (s : State) : (s.deliver .gUnit k).i = s.i := rfl
@[simp] theorem State.deliver_gUnit_fr (k : ErrCode) (s : State) : (s.deliver .gUnit k).fr = s.fr := rfl
@[simp] theorem State.deliver_gUnit_bit (k : ErrCode) (s : State) : (s.deliver .gUnit k).bit = s.bit := rfl
@[simp] theorem State.deliver_gUnit_pix (k : ErrCode) (s : State) : (s.deliver .gUnit k).pix = s.pix := rfl
@[simp] theorem State.deliver_gUnit_inbox (k : ErrCode) (s : State) : (s.deliver .gUnit k).inbox = s.inbox := rfl
@[simp] theorem State.deliver_gUnit_probe (k : ErrCode) (s : State) : (s.deliver .gUnit k).probe = s.probe := rfl
@[simp] theorem State.deliver_gUnit_freeCtr (k : ErrCode) (s : State) : (s.deliver .gUnit k).freeCtr = s.freeCtr := rfl
@[simp] theorem State.deliver_iUnit_g (k : ErrCode) (s : State) : (s.deliver .iUnit k).g = s.g := rfl
@[simp] theorem State.deliver_iUnit_i_valid (k : ErrCode) (s : State) : (s.deliver .iUnit k).i.valid = s.i.valid := rfl
@[simp] theorem State.deliver_iUnit_i_pred (k : ErrCode) (s : State) : (s.deliver .iUnit k).i.pred = s.i.pred := rfl
@[simp] theorem State.deliver_iUnit_i_opPred (k : ErrCode) (s : State) : (s.deliver .iUnit k).i.opPred = s.i.opPred := rfl
@[simp] theorem State.deliver_iUnit_i_opW (k : ErrCode) (s : State) : (s.deliver .iUnit k).i.opW = s.i.opW := rfl
@[simp] theorem State.deliver_iUnit_i_opH (k : ErrCode) (s : State) : (s.deliver .iUnit k).i.opH = s.i.opH := rfl
@[simp] theorem State.deliver_iUnit_i_opLen (k : ErrCode) (s : State) : (s.deliver .iUnit k).i.opLen = s.i.opLen := rfl
@[simp] theorem State.deliver_iUnit_i_err (k : ErrCode) (s : State) : (s.deliver .iUnit k).i.err = k := rfl
@[simp] theorem State.deliver_iUnit_fr (k : ErrCode) (s : State) : (s.deliver .iUnit k).fr = s.fr := rfl
@[simp] theorem State.deliver_iUnit_bit (k : ErrCode) (s : State) : (s.deliver .iUnit k).bit = s.bit := rfl
@[simp] theorem State.deliver_iUnit_pix (k : ErrCode) (s : State) : (s.deliver .iUnit k).pix = s.pix := rfl
@[simp] theorem State.deliver_iUnit_inbox (k : ErrCode) (s : State) : (s.deliver .iUnit k).inbox = s.inbox := rfl
@[simp] theorem State.deliver_iUnit_probe (k : ErrCode) (s : State) : (s.deliver .iUnit k).probe = s.probe := rfl
@[simp] theorem State.deliver_iUnit_freeCtr (k : ErrCode) (s : State) : (s.deliver .iUnit k).freeCtr = s.freeCtr := rfl

/-! ### GUnit.writeDivisor -/

@[simp] theorem GUnit.writeDivisor_valid (m : Nat) (g : GUnit) : (g.writeDivisor m).valid = g.valid := rfl
@[simp] theorem GUnit.writeDivisor_mode (m : Nat) (g : GUnit) : (g.writeDivisor m).mode = g.mode := rfl
@[simp] theorem GUnit.writeDivisor_opM (m : Nat) (g : GUnit) : (g.writeDivisor m).opM = g.opM := rfl
@[simp] theorem GUnit.writeDivisor_opMode (m : Nat) (g : GUnit) : (g.writeDivisor m).opMode = g.opMode := rfl
@[simp] theorem GUnit.writeDivisor_opValue (m : Nat) (g : GUnit) : (g.writeDivisor m).opValue = g.opValue := rfl
@[simp] theorem GUnit.writeDivisor_opPos (m : Nat) (g : GUnit) : (g.writeDivisor m).opPos = g.opPos := rfl
@[simp] theorem GUnit.writeDivisor_resValue (m : Nat) (g : GUnit) : (g.writeDivisor m).resValue = g.resValue := rfl
@[simp] theorem GUnit.writeDivisor_resConsumed (m : Nat) (g : GUnit) : (g.writeDivisor m).resConsumed = g.resConsumed := rfl
@[simp] theorem GUnit.writeDivisor_cw (m : Nat) (g : GUnit) : (g.writeDivisor m).cw = g.cw := rfl
@[simp] theorem GUnit.writeDivisor_str (m : Nat) (g : GUnit) : (g.writeDivisor m).str = g.str := rfl
@[simp] theorem GUnit.writeDivisor_err (m : Nat) (g : GUnit) : (g.writeDivisor m).err = g.err := rfl
@[simp] theorem GUnit.writeDivisor_m (m : Nat) (g : GUnit) : (g.writeDivisor m).m = BitVec.ofNat 16 m := rfl
@[simp] theorem GUnit.writeDivisor_b (m : Nat) (g : GUnit) : (g.writeDivisor m).b = BitVec.ofNat 5 (clog2 m) := rfl
@[simp] theorem GUnit.writeDivisor_t (m : Nat) (g : GUnit) : (g.writeDivisor m).t = BitVec.ofNat 15 (threshold m) := rfl
@[simp] theorem GUnit.writeDivisor_pstate (m : Nat) (g : GUnit) : (g.writeDivisor m).pstate = .ready := rfl

end Sys2Proof.Machine
end

