-- ==== Sys2Proof/Laws/Ops.lean ====
section
/-! SUPPORT. For each shared operation, once, everything it can do. -/

namespace Sys2Proof.Machine

theorem requireG_eq_next {s n t : State} (h : requireG s n = .next t) : s.g.valid = true ∧ t = n := by
  unfold requireG at h
  split at h
  · next hv => exact ⟨hv, by cases h; rfl⟩
  · cases h

theorem requireG_of_valid {s n : State} (h : s.g.valid = true) : requireG s n = .next n := by
  simp [requireG, h]

theorem requireG_of_not_valid {s n : State} (h : s.g.valid = false) :
    requireG s n = .refused (.notConstructed .gUnit) := by
  simp [requireG, h]

theorem requireI_eq_next {s t : State} {k : Host.Outcome State Fault Refusal}
    (h : requireI s k = .next t) : s.i.valid = true ∧ k = .next t := by
  unfold requireI at h
  split at h
  · next hv => exact ⟨hv, h⟩
  · cases h

theorem requireI_of_valid {s : State} {k : Host.Outcome State Fault Refusal} (h : s.i.valid = true) :
    requireI s k = k := by
  simp [requireI, h]

theorem requireI_of_not_valid {s : State} {k : Host.Outcome State Fault Refusal}
    (h : s.i.valid = false) : requireI s k = .refused (.notConstructed .iUnit) := by
  simp [requireI, h]

/-- What MALFORMED in G.DECODE leaves: only the outcome and the two result registers differ. -/
theorem failGDecode_spec (s : State) :
    ∃ v k, failGDecode s =
      { s with
        g := { s.g with resValue := v, resConsumed := k, err := .malformed }
        freeCtr := s.freeCtr + 1 } :=
  ⟨_, _, rfl⟩

/-- The end of an image operation: only I.ERR and the transient registers differ. -/
theorem endImage_spec (k : ErrCode) (s : State) :
    ∃ fr, endImage k s =
      { s with i := { s.i with err := k }, fr := fr, freeCtr := s.freeCtr + 2 } :=
  ⟨_, rfl⟩

/-- An error in I.ENCODE: beside the end of the operation, only the sink differs. -/
theorem failIEncode_spec (k : ErrCode) (s : State) :
    ∃ S fr, failIEncode k s =
      { s with bit := S, i := { s.i with err := k }, fr := fr, freeCtr := s.freeCtr + 2 } :=
  ⟨_, _, rfl⟩

/-- An error in I.DECODE: beside the end of the operation, only the raster below W * H differs. -/
theorem failIDecode_spec (k : ErrCode) (s : State) :
    ∃ B fr, failIDecode k s =
      { s with
        pix := s.pix.replaceBelow (s.i.opW * s.i.opH) B, i := { s.i with err := k }, fr := fr
        freeCtr := s.freeCtr + 2 } :=
  ⟨_, _, rfl⟩

/-- One symbol into the result registers, or MALFORMED. -/
theorem gDecodeAt_cases (S : BitSeq) (pos : Nat) (s : State) :
    (∃ v k, decodeSym S pos s.g.m.toNat s.g.mode = some (v, k) ∧
      gDecodeAt S pos s = s.setG { s.g with resValue := v, resConsumed := k, err := .ok }) ∨
    (decodeSym S pos s.g.m.toNat s.g.mode = none ∧ gDecodeAt S pos s = failGDecode s) := by
  unfold gDecodeAt
  split
  · next v k h => exact .inl ⟨v, k, h, rfl⟩
  · next h => exact .inr ⟨h, rfl⟩

/-- What I.DECODE's body can answer with a next state. -/
theorem decodeBody_eq_next {gm : Nat} {s t : State} (h : decodeBody gm s = .next t) :
    (∃ cur m, decodePass s.i.pred s.bit s.i.opW gm (s.i.opW * s.i.opH) (0, 0) 64 s.pix = .done cur m ∧
      t = endImage .ok (s.setPix m)) ∨ t = failIDecode .malformed s := by
  unfold decodeBody at h
  split at h
  · next cur m hp => exact .inl ⟨cur, m, hp, by cases h; rfl⟩
  · exact .inr (by cases h; rfl)
  · cases h

/-- What I.DECODE can answer with a next state. -/
theorem execIDecode_eq_next {s t : State} (h : execIDecode s = .next t) :
    s.i.valid = true ∧
      ((∃ k, k ≠ ErrCode.ok ∧ t = failIDecode k s) ∨
        ∃ hd, readHeader s.bit = some hd ∧ headerCheck s.i.opW s.i.opH s.i.pred hd = .ok ∧
          decodeBody hd.m s = .next t) := by
  obtain ⟨hv, h⟩ := requireI_eq_next h
  refine ⟨hv, ?_⟩
  split at h
  · exact .inl ⟨.invalidShape, by decide, by cases h; rfl⟩
  · split at h
    · exact .inl ⟨.malformed, by decide, by cases h; rfl⟩
    · next hd hr =>
      split at h
      · next hk => exact .inr ⟨hd, hr, hk, h⟩
      · next k hk => exact .inl ⟨_, hk, by cases h; rfl⟩

/-- What I.ENCODE can answer with a next state. -/
theorem execIEncode_eq_next {s t : State} (h : execIEncode s = .next t) :
    s.i.valid = true ∧ s.bit = [] ∧
      ((shapeBad s = true ∧ t = failIEncode .invalidShape s) ∨
        shapeBad s = false ∧ ∃ F, encodeImage s.i.pred s.pix s.i.opW s.i.opH = .ok F ∧
          t = endImage .ok (s.setBit F)) := by
  obtain ⟨hv, h⟩ := requireI_eq_next h
  refine ⟨hv, ?_⟩
  split at h
  · cases h
  · next hb =>
    refine ⟨not_not.1 hb, ?_⟩
    split at h
    · next hs => exact .inl ⟨hs, by cases h; rfl⟩
    · next hs =>
      split at h
      · cases h
      · next F hF => exact .inr ⟨Bool.eq_false_iff.2 hs, F, hF, by cases h; rfl⟩

/-- I.ENCODE with a sink that is not empty is refused, whatever the operands. -/
theorem execIEncode_of_sink {s : State} (hv : s.i.valid = true) (hb : s.bit ≠ []) :
    execIEncode s = .refused .sinkNotEmpty := by
  rw [execIEncode, requireI_of_valid hv, if_pos hb]

/-- What G.CONSTRUCT can answer with a next state. -/
theorem execGConstruct_eq_next {s t : State} (h : execGConstruct s = .next t) :
    (s.g.opM = 0 ∧ t = raiseG .invalidParameter s) ∨
      (1 ≤ s.g.opM ∧ s.g.opM ≤ Config.mMax ∧
        t = s.setG
          { s.g.writeDivisor s.g.opM with mode := s.g.opMode, valid := true, err := .ok }) := by
  unfold execGConstruct at h
  split at h
  · next h0 => exact .inl ⟨h0, by cases h; rfl⟩
  · split at h
    · cases h
    · exact .inr ⟨by omega, by omega, by cases h; rfl⟩

/-- What G.SETM can answer with a next state. -/
theorem execGSetm_eq_next {s t : State} (h : execGSetm s = .next t) :
    s.g.valid = true ∧
      ((s.g.opM = 0 ∧ t = raiseG .invalidParameter s) ∨
        (1 ≤ s.g.opM ∧ s.g.opM ≤ Config.mMax ∧
          t = s.setG { s.g.writeDivisor s.g.opM with err := .ok })) := by
  unfold execGSetm at h
  split at h
  · cases h
  · next hv =>
    refine ⟨by simpa using hv, ?_⟩
    split at h
    · next h0 => exact .inl ⟨h0, by cases h; rfl⟩
    · split at h
      · cases h
      · exact .inr ⟨by omega, by omega, by cases h; rfl⟩

/-- What I.CONSTRUCT can answer with a next state. -/
theorem execIConstruct_eq_next {s t : State} (h : execIConstruct s = .next t) :
    ∃ pred, Predictor.ofId s.i.opPred.toNat = some pred ∧
      t = s.setI { s.i with pred := pred, valid := true, err := .ok } := by
  unfold execIConstruct at h
  split at h
  · next pred hp => exact ⟨pred, hp, by cases h; rfl⟩
  · cases h

/-- What a header at the header reader can answer with a next state. -/
theorem execFrameHeader_eq_next {w h m : BitVec 16} {p : BitVec 4} {r : BitVec 12} {s t : State}
    (he : execFrameHeader w h m p r s = .next t) :
    s.i.valid = true ∧
      ((∃ k, k ≠ ErrCode.ok ∧ t = s.deliver .iUnit k) ∨
        t = (s.setFr (s.fr.startFrame w h m)).deliver .iUnit .ok) := by
  obtain ⟨hv, he⟩ := requireI_eq_next he
  refine ⟨hv, ?_⟩
  split at he
  · exact .inl ⟨.invalidShape, by decide, by cases he; rfl⟩
  · split at he
    · exact .inr (by cases he; rfl)
    · next k hk => exact .inl ⟨_, hk, by cases he; rfl⟩

/-- A predictor id writes I.OP_PRED or shows a prediction, and nothing else. -/
theorem selectPredictor_spec (code : BitVec 4) (f : Int → Int → Int → Int) (place : PredPlace)
    (s : State) :
    selectPredictor code f place s = .next (s.setI { s.i with opPred := code }) ∨
      selectPredictor code f place s =
        .next (s.setProbe { s.probe with p := f s.fr.l.toNat s.fr.a.toNat s.fr.c.toNat }) := by
  cases place
  · exact .inl rfl
  · exact .inr rfl

/-- A mode code writes G.OP_MODE or shows a mapped number or value, and nothing else. -/
theorem selectMode_spec (mode : SignMode) (place : ModePlace) (s : State) :
    selectMode mode place s = .next (s.setG { s.g with opMode := mode }) ∨
      ∃ p, selectMode mode place s = .next (s.setProbe p) := by
  cases place
  · exact .inl rfl
  · exact .inr ⟨_, rfl⟩
  · exact .inr ⟨_, rfl⟩

/-- The next request, by what stands at the head of the queue. -/
theorem fetch_cases (s : State) :
    (s.inbox = [] ∧ fetch s = .idle) ∨
    (∃ p rest, s.inbox = .word p :: rest ∧
      fetch s = .word (decode s.g.m.toNat p) (s.setInbox rest)) ∨
    ∃ r rest, s.inbox = r :: rest ∧ (∀ p, r ≠ .word p) ∧
      fetch s = .host (hostWrite r (s.setInbox rest)) := by
  rcases h : s.inbox with _ | ⟨r, rest⟩
  · exact .inl ⟨rfl, by simp [fetch, h]⟩
  · cases r
    case word p => exact .inr (.inl ⟨p, rest, rfl, by simp [fetch, h]⟩)
    all_goals exact .inr (.inr ⟨_, rest, rfl, by simp, by simp [fetch, h]⟩)

/-- What a step can answer with a next state. -/
theorem step_eq_next {s t : State} (h : step s = .next t) :
    (s.inbox = [] ∧ t = s) ∨
    (∃ r rest, s.inbox = r :: rest ∧ (∀ p, r ≠ .word p) ∧ t = hostWrite r (s.setInbox rest)) ∨
    (∃ p rest i, s.inbox = .word p :: rest ∧ decode s.g.m.toNat p = .ok i ∧
      exec i (s.setInbox rest) = .next t) ∨
    ∃ p rest, s.inbox = .word p :: rest ∧ decode s.g.m.toNat p = .error .truncatedCodeword ∧
      s.g.valid = true ∧ t = failGDecode (s.setInbox rest) := by
  rcases fetch_cases s with ⟨hi, hf⟩ | ⟨p, rest, hi, hf⟩ | ⟨r, rest, hi, hr, hf⟩
  · exact .inl ⟨hi, by rw [step, hf] at h; cases h; rfl⟩
  · rw [step, hf] at h
    rcases hd : decode s.g.m.toNat p with e | i
    · rw [hd] at h
      cases e with
      | noPredictor id => cases h
      | truncatedCodeword =>
        obtain ⟨hv, ht⟩ := requireG_eq_next h
        exact .inr (.inr (.inr ⟨p, rest, hi, hd, hv, ht⟩))
    · rw [hd] at h
      exact .inr (.inr (.inl ⟨p, rest, i, hi, hd, h⟩))
  · exact .inr (.inl ⟨r, rest, hi, hr, by rw [step, hf] at h; cases h; rfl⟩)

/-- The pixel loop keeps the raster's canonical form. -/
theorem decodePass_wf {pred : Predictor} {S : BitSeq} {W gm count : Nat} {xy : Nat × Nat} {cur cur' : Nat}
    {m m' : Memory} (hm : m.wf) (h : decodePass pred S W gm count xy cur m = .done cur' m') : m'.wf := by
  induction count generalizing xy cur m with
  | zero => simp only [decodePass, PassResult.done.injEq] at h; exact h.2 ▸ hm
  | succ count ih =>
    simp only [decodePass] at h
    split at h
    · next c1 m1 hp =>
      refine ih ?_ h
      unfold pixelStep at hp
      split at hp
      · cases hp
      · split at hp
        · cases hp
        · cases hp; exact Memory.wf_write hm _ _
    · next hne => exact absurd h (hne _ _)

end Sys2Proof.Machine
end

