-- ==== Sys2Proof/Laws/PerInstr.lean ====
section
/-! SUPPORT. A law of every instruction as syntax: the word it encodes to has the width the opcode table
gives its row (spec/opcode_table.json, "width"). -/

namespace Sys2Proof.Laws

def EncodedWidth.Statement (i : Instr) : Prop :=
  ∀ k, i.tableWidth = some k → (encode i).width = k

theorem EncodedWidth.gConstruct : EncodedWidth.Statement (.gConstruct) := by
  intro k h; cases h; rfl

theorem EncodedWidth.gSetm : EncodedWidth.Statement (.gSetm) := by
  intro k h; cases h; rfl

theorem EncodedWidth.gEncode : EncodedWidth.Statement (.gEncode) := by
  intro k h; cases h; rfl

theorem EncodedWidth.gEncodeto : EncodedWidth.Statement (.gEncodeto) := by
  intro k h; cases h; rfl

theorem EncodedWidth.gDecode : EncodedWidth.Statement (.gDecode) := by
  intro k h; cases h; rfl

theorem EncodedWidth.gBitstostr : EncodedWidth.Statement (.gBitstostr) := by
  intro k h; cases h; rfl

theorem EncodedWidth.iConstruct : EncodedWidth.Statement (.iConstruct) := by
  intro k h; cases h; rfl

theorem EncodedWidth.iEncode : EncodedWidth.Statement (.iEncode) := by
  intro k h; cases h; rfl

theorem EncodedWidth.iDecode : EncodedWidth.Statement (.iDecode) := by
  intro k h; cases h; rfl

theorem EncodedWidth.reservedCmd0110 : EncodedWidth.Statement (.reservedCmd0110) := by
  intro k h; cases h; rfl

theorem EncodedWidth.reservedCmd0111 : EncodedWidth.Statement (.reservedCmd0111) := by
  intro k h; cases h; rfl

theorem EncodedWidth.reservedCmd1011 : EncodedWidth.Statement (.reservedCmd1011) := by
  intro k h; cases h; rfl

theorem EncodedWidth.reservedCmd1100 : EncodedWidth.Statement (.reservedCmd1100) := by
  intro k h; cases h; rfl

theorem EncodedWidth.reservedCmd1101 : EncodedWidth.Statement (.reservedCmd1101) := by
  intro k h; cases h; rfl

theorem EncodedWidth.reservedCmd1110 : EncodedWidth.Statement (.reservedCmd1110) := by
  intro k h; cases h; rfl

theorem EncodedWidth.reservedCmd1111 : EncodedWidth.Statement (.reservedCmd1111) := by
  intro k h; cases h; rfl

theorem EncodedWidth.predPrev (place : PredPlace) : EncodedWidth.Statement (.predPrev place) := by
  intro k h; cases h; rfl

theorem EncodedWidth.predAbove (place : PredPlace) : EncodedWidth.Statement (.predAbove place) := by
  intro k h; cases h; rfl

theorem EncodedWidth.predAverage (place : PredPlace) : EncodedWidth.Statement (.predAverage place) := by
  intro k h; cases h; rfl

theorem EncodedWidth.predPaeth (place : PredPlace) : EncodedWidth.Statement (.predPaeth place) := by
  intro k h; cases h; rfl

theorem EncodedWidth.predJpegLs (place : PredPlace) : EncodedWidth.Statement (.predJpegLs place) := by
  intro k h; cases h; rfl

theorem EncodedWidth.predGradient (place : PredPlace) : EncodedWidth.Statement (.predGradient place) := by
  intro k h; cases h; rfl

theorem EncodedWidth.predReserved6 : EncodedWidth.Statement (.predReserved6) := by
  intro k h; cases h; rfl

theorem EncodedWidth.predReserved7 : EncodedWidth.Statement (.predReserved7) := by
  intro k h; cases h; rfl

theorem EncodedWidth.predReserved8 : EncodedWidth.Statement (.predReserved8) := by
  intro k h; cases h; rfl

theorem EncodedWidth.predReserved9 : EncodedWidth.Statement (.predReserved9) := by
  intro k h; cases h; rfl

theorem EncodedWidth.predReserved10 : EncodedWidth.Statement (.predReserved10) := by
  intro k h; cases h; rfl

theorem EncodedWidth.predReserved11 : EncodedWidth.Statement (.predReserved11) := by
  intro k h; cases h; rfl

theorem EncodedWidth.predReserved12 : EncodedWidth.Statement (.predReserved12) := by
  intro k h; cases h; rfl

theorem EncodedWidth.predReserved13 : EncodedWidth.Statement (.predReserved13) := by
  intro k h; cases h; rfl

theorem EncodedWidth.predReserved14 : EncodedWidth.Statement (.predReserved14) := by
  intro k h; cases h; rfl

theorem EncodedWidth.predReserved15 : EncodedWidth.Statement (.predReserved15) := by
  intro k h; cases h; rfl

theorem EncodedWidth.modeSignMagnitude (place : ModePlace) : EncodedWidth.Statement (.modeSignMagnitude place) := by
  intro k h; cases h; rfl

theorem EncodedWidth.modeInterleaving (place : ModePlace) : EncodedWidth.Statement (.modeInterleaving place) := by
  intro k h; cases h; rfl

theorem EncodedWidth.errOk (u : UnitId) : EncodedWidth.Statement (.errOk u) := by
  intro k h; cases h; rfl

theorem EncodedWidth.errInvalidParameter (u : UnitId) : EncodedWidth.Statement (.errInvalidParameter u) := by
  intro k h; cases h; rfl

theorem EncodedWidth.errInvalidShape (u : UnitId) : EncodedWidth.Statement (.errInvalidShape u) := by
  intro k h; cases h; rfl

theorem EncodedWidth.errMalformed (u : UnitId) : EncodedWidth.Statement (.errMalformed u) := by
  intro k h; cases h; rfl

theorem EncodedWidth.frameHeader (w h m : BitVec 16) (p : BitVec 4) (r : BitVec 12) : EncodedWidth.Statement (.frameHeader w h m p r) := by
  intro k h; cases h; rfl

theorem EncodedWidth.codeword (m n : Nat) : EncodedWidth.Statement (.codeword m n) := by
  intro k h; cases h

end Sys2Proof.Laws
end

