-- ==== Sys2Proof/Tests/Slice0.lean ====
section
/-! SUPPORT. The model's own tests. Expected values come from the tables and vectors of spec/, named beside
each test, and the bits of every word are written out from 30_encoding.md. A theorem `witness_<Name>` shows
states and operands that meet the hypotheses of `Obligations.<Name>`. -/

open Sys2Proof Sys2Proof.Machine

namespace Sys2Proof.Tests

/-! ### Helpers -/

/-- The outcome is a next state of which `f` holds. -/
def nextHas (o : Host.Outcome State Fault Refusal) (f : State → Bool) : Bool :=
  match o with
  | .next t => f t
  | _ => false

theorem exists_next {o : Host.Outcome State Fault Refusal} {f : State → Bool} (h : nextHas o f = true) :
    ∃ t, o = .next t ∧ f t = true := by
  cases o with
  | next t => exact ⟨t, rfl, h⟩
  | fault r => cases h
  | refused r => cases h

/-- Bits written as the digits of a string. -/
def bits (s : String) : BitSeq := s.toList.map (· == '1')

/-- A G unit constructed with `m` and `mode`, over the bit sequence `S`. -/
def gState (m : Nat) (mode : SignMode) (S : BitSeq) : State :=
  { State.reset with
    g := { GUnit.reset with valid := true, m := BitVec.ofNat 16 m, b := BitVec.ofNat 5 (clog2 m),
                            t := BitVec.ofNat 15 (threshold m), mode := mode }
    bit := S }

/-- The same with the operand value `v`. -/
def gValue (m : Nat) (mode : SignMode) (S : BitSeq) (v : Int) : State :=
  (gState m mode S).setG { (gState m mode S).g with opValue := v }

/-- The same with the operand position `pos`. -/
def gPos (m : Nat) (mode : SignMode) (S : BitSeq) (pos : Nat) : State :=
  (gState m mode S).setG { (gState m mode S).g with opPos := pos }

/-- The same with the operand divisor `k`. -/
def gOpM (m : Nat) (mode : SignMode) (k : Nat) : State :=
  (gState m mode []).setG { (gState m mode []).g with opM := k }

/-- An I unit constructed with `pred`, over the raster `B` and the bit sequence `S`. -/
def iState (pred : Predictor) (W H len : Nat) (B : List Byte) (S : BitSeq) : State :=
  { State.reset with
    i := { IUnit.reset with valid := true, pred := pred, opW := W, opH := H, opLen := len }
    pix := Memory.ofBytes B
    bit := S }

/-- Reset with the operand predictor id `id`. -/
def opPredState (id : BitVec 4) : State := State.reset.setI { IUnit.reset with opPred := id }

/-- Reset with the neighbour window (l, a, c). -/
def windowState (l a c : BitVec 8) : State :=
  State.reset.setFr { Transients.reset with l := l, a := a, c := c }

/-- The bytes of the raster below `n`. -/
def rasterBytes (m : Memory) (n : Nat) : List (Option Byte) := (List.range n).map m.read

/-- The PAETH frame of V31, 11 bytes. -/
def frameV31 : List Byte := [0x00, 0x02, 0x00, 0x02, 0x00, 0x03, 0x30, 0x00, 0xFD, 0xD3, 0xA0]

/-! ### Decoding: the words of the tables of 30_encoding.md (R79, R81, R82, R85, R86, R87) and of
60_exceptions.md R235, one for every constructor -/

theorem test_decode_gConstruct : decode 1 (.cmd 0b0000) = .ok .gConstruct := by decide
theorem test_decode_gSetm : decode 1 (.cmd 0b0001) = .ok .gSetm := by decide
theorem test_decode_gEncode : decode 1 (.cmd 0b0010) = .ok .gEncode := by decide
theorem test_decode_gEncodeto : decode 1 (.cmd 0b0011) = .ok .gEncodeto := by decide
theorem test_decode_gDecode : decode 1 (.cmd 0b0100) = .ok .gDecode := by decide
theorem test_decode_gBitstostr : decode 1 (.cmd 0b0101) = .ok .gBitstostr := by decide
theorem test_decode_reserved0110 : decode 1 (.cmd 0b0110) = .ok .reservedCmd0110 := by decide
theorem test_decode_reserved0111 : decode 1 (.cmd 0b0111) = .ok .reservedCmd0111 := by decide
theorem test_decode_iConstruct : decode 1 (.cmd 0b1000) = .ok .iConstruct := by decide
theorem test_decode_iEncode : decode 1 (.cmd 0b1001) = .ok .iEncode := by decide
theorem test_decode_iDecode : decode 1 (.cmd 0b1010) = .ok .iDecode := by decide
theorem test_decode_reserved1011 : decode 1 (.cmd 0b1011) = .ok .reservedCmd1011 := by decide
theorem test_decode_reserved1100 : decode 1 (.cmd 0b1100) = .ok .reservedCmd1100 := by decide
theorem test_decode_reserved1101 : decode 1 (.cmd 0b1101) = .ok .reservedCmd1101 := by decide
theorem test_decode_reserved1110 : decode 1 (.cmd 0b1110) = .ok .reservedCmd1110 := by decide
theorem test_decode_reserved1111 : decode 1 (.cmd 0b1111) = .ok .reservedCmd1111 := by decide

theorem test_decode_predictor_operands :
    decode 1 (.pred .operand 0b0000) = .ok (.predPrev .operand) ∧
    decode 1 (.pred .operand 0b0001) = .ok (.predAbove .operand) ∧
    decode 1 (.pred .operand 0b0010) = .ok (.predAverage .operand) ∧
    decode 1 (.pred .operand 0b0011) = .ok (.predPaeth .operand) ∧
    decode 1 (.pred .operand 0b0100) = .ok (.predJpegLs .operand) ∧
    decode 1 (.pred .operand 0b0101) = .ok (.predGradient .operand) := by decide

theorem test_decode_predictor_selects :
    decode 1 (.pred .select 0b0000) = .ok (.predPrev .select) ∧
    decode 1 (.pred .select 0b0001) = .ok (.predAbove .select) ∧
    decode 1 (.pred .select 0b0010) = .ok (.predAverage .select) ∧
    decode 1 (.pred .select 0b0011) = .ok (.predPaeth .select) ∧
    decode 1 (.pred .select 0b0100) = .ok (.predJpegLs .select) ∧
    decode 1 (.pred .select 0b0101) = .ok (.predGradient .select) ∧
    decode 1 (.pred .select 0b0110) = .error (.noPredictor 6) ∧
    decode 1 (.pred .select 0b1111) = .error (.noPredictor 15) := by decide

theorem test_decode_reserved_ids :
    decode 1 (.pred .operand 0b0110) = .ok .predReserved6 ∧
    decode 1 (.pred .operand 0b0111) = .ok .predReserved7 ∧
    decode 1 (.pred .operand 0b1000) = .ok .predReserved8 ∧
    decode 1 (.pred .operand 0b1001) = .ok .predReserved9 ∧
    decode 1 (.pred .operand 0b1010) = .ok .predReserved10 ∧
    decode 1 (.pred .operand 0b1011) = .ok .predReserved11 ∧
    decode 1 (.pred .operand 0b1100) = .ok .predReserved12 ∧
    decode 1 (.pred .operand 0b1101) = .ok .predReserved13 ∧
    decode 1 (.pred .operand 0b1110) = .ok .predReserved14 ∧
    decode 1 (.pred .operand 0b1111) = .ok .predReserved15 := by decide

theorem test_decode_modes :
    decode 1 (.mode .operand 0b0) = .ok (.modeSignMagnitude .operand) ∧
    decode 1 (.mode .forward 0b1) = .ok (.modeInterleaving .forward) := by decide

theorem test_decode_outcomes :
    decode 1 (.err .gUnit 0b00) = .ok (.errOk .gUnit) ∧
    decode 1 (.err .gUnit 0b01) = .ok (.errInvalidParameter .gUnit) ∧
    decode 1 (.err .iUnit 0b10) = .ok (.errInvalidShape .iUnit) ∧
    decode 1 (.err .iUnit 0b11) = .ok (.errMalformed .iUnit) := by decide

/-- V30, third row: 640 x 480, m = 7, predictor 4. -/
theorem test_decode_header :
    decode 1 (.header 0b0000001010000000_0000000111100000_0000000000000111_0100_000000000000) =
      .ok (.frameHeader 640 480 7 4 0) := by decide

/-- V30, last row, and a word whose reserved field is not zero: every field in its place. -/
theorem test_decode_header_fields :
    decode 1 (.header 0x0002_0001_0040_0000) = .ok (.frameHeader 2 1 64 0 0) ∧
    decode 1 (.header 0x0001_FFFF_0162_F801) = .ok (.frameHeader 1 65535 354 15 0x801) := by decide

/-- V11 and V12: `10 01` is n = 6 under m = 5, `0` n = 0 under m = 1, `0 11111` n = 16 under m = 17; bits
that follow are not looked at. -/
theorem test_decode_codeword :
    decode 5 (.codeword (bits "1001")) = .ok (.codeword 5 6) ∧
    decode 1 (.codeword (bits "0")) = .ok (.codeword 1 0) ∧
    decode 17 (.codeword (bits "01111110")) = .ok (.codeword 17 16) := by decide

/-- V13, rows 20 and 26: bits that end inside the codeword. -/
theorem test_decode_codeword_cut :
    decode 5 (.codeword []) = .error .truncatedCodeword ∧
    decode 5 (.codeword (bits "1011")) = .error .truncatedCodeword := by decide

theorem test_decodeTableWord :
    decodeTableWord 8 0xA = some .iDecode ∧ decodeTableWord 8 0x10 = none ∧
    decodeTableWord 64 0x0002_0002_0003_3000 = some (.frameHeader 2 2 3 3 0) := by decide

/-- The word that is presented is the next one that runs. -/
theorem test_withFetchWord :
    nextHas (step (State.reset.withFetchWord 8 0b1000)) (fun t => t.i.valid && t.inbox.isEmpty) = true := by
  decide

/-! ### WellFormed: an ill-formed term for each check -/

theorem test_wellFormed_header : wellFormed (.frameHeader 2 2 3 3 0) = true := by decide
theorem test_wellFormed_width_zero : wellFormed (.frameHeader 0 2 3 3 0) = false := by decide
theorem test_wellFormed_height_zero : wellFormed (.frameHeader 2 0 3 3 0) = false := by decide
theorem test_wellFormed_divisor_zero : wellFormed (.frameHeader 2 2 0 3 0) = false := by decide
theorem test_wellFormed_id_reserved : wellFormed (.frameHeader 2 2 3 6 0) = false := by decide
theorem test_wellFormed_reserved_field : wellFormed (.frameHeader 2 2 3 3 1) = false := by decide
theorem test_wellFormed_codeword_m_zero : wellFormed (.codeword 0 6) = false := by decide
theorem test_wellFormed_codeword_m_large : wellFormed (.codeword 65536 6) = false := by decide
theorem test_wellFormed_codeword_bounds :
    wellFormed (.codeword 1 6) = true ∧ wellFormed (.codeword 65535 0) = true := by decide
theorem test_wellFormed_shape_of_gUnit :
    wellFormed (.errInvalidShape .gUnit) = false ∧ wellFormed (.errInvalidShape .iUnit) = true := by decide
theorem test_wellFormed_reserved_commands :
    [Instr.reservedCmd0110, .reservedCmd0111, .reservedCmd1011, .reservedCmd1100, .reservedCmd1101,
      .reservedCmd1110, .reservedCmd1111].all (fun i => !wellFormed i) = true := by decide
theorem test_wellFormed_reserved_ids :
    [Instr.predReserved6, .predReserved7, .predReserved8, .predReserved9, .predReserved10,
      .predReserved11, .predReserved12, .predReserved13, .predReserved14,
      .predReserved15].all (fun i => !wellFormed i) = true := by decide

/-! ### One step each -/

/-- V1, step 9: m = 32769 gives b = 16, t = 32767. -/
theorem test_gSetm_largest_threshold :
    nextHas (exec .gSetm (gOpM 5 .interleaving 32769))
      (fun t => t.g.m == 32769 && t.g.b == 16 && t.g.t == 32767 && t.g.mode == .interleaving) = true := by
  decide

/-- V1, step 1: refused before G.CONSTRUCT. -/
theorem test_gSetm_unconstructed : exec .gSetm State.reset = .refused (.notConstructed .gUnit) := rfl

/-- V1, step 2: m = 0 on an unconstructed unit; G.VALID stays 0. -/
theorem test_gConstruct_zero :
    nextHas (exec .gConstruct State.reset) (fun t => t.g.err == .invalidParameter && !t.g.valid) = true := by
  decide

/-- V1, step 7: m = 65535 gives b = 16, t = 1. -/
theorem test_gConstruct_max :
    nextHas (exec .gConstruct (State.reset.setG { GUnit.reset with opM := 65535, opMode := .interleaving }))
      (fun t => t.g.m == 65535 && t.g.b == 16 && t.g.t == 1 && t.g.valid && t.g.mode == .interleaving) =
      true := by decide

/-- V11, m = 5: v = 2 is `0 111`. -/
theorem test_gEncode_long_form :
    nextHas (exec .gEncode (gValue 5 .interleaving [] 2)) (fun t => t.g.cw == bits "0111") = true := by
  decide

/-- V12, m = 3, SIGN_MAGNITUDE: v = -5 is `1110 11`. -/
theorem test_gEncode_signMagnitude :
    nextHas (exec .gEncode (gValue 3 .signMagnitude [] (-5))) (fun t => t.g.cw == bits "111011") = true := by
  decide

/-- P1, the second G.ENCODETO: m = 4, v = 10 appended after `1001`. -/
theorem test_gEncodeto_appends :
    nextHas (exec .gEncodeto (gValue 4 .interleaving (bits "1001") 10))
      (fun t => t.bit == bits "100111111000") = true := by decide

/-- V13, fourth row: `0001001` at pos 3 under m = 5. -/
theorem test_gDecode_at_pos :
    nextHas (exec .gDecode (gPos 5 .interleaving (bits "0001001") 3))
      (fun t => t.g.resValue == 3 && t.g.resConsumed == 4 && t.g.err == .ok) = true := by decide

/-- P1, the last G.DECODE: no bit at index 26 of 26. -/
theorem test_gDecode_at_end :
    nextHas (exec .gDecode (gPos 1 .interleaving (bits "10011111100011111111111110") 26))
      (fun t => t.g.err == .malformed && t.g.m == 1) = true := by decide

/-- V15. -/
theorem test_gBitstostr :
    nextHas (exec .gBitstostr (gState 5 .interleaving (bits "1001")))
      (fun t => t.g.str == ['1', '0', '0', '1']) = true := by decide

theorem test_iConstruct :
    nextHas (exec .iConstruct (opPredState 3)) (fun t => t.i.pred == .paeth && t.i.valid) = true := by decide

/-- 47_image_encode.md R195: an id above 5 is refused. -/
theorem test_iConstruct_reserved : exec .iConstruct (opPredState 6) = .refused (.reservedPredictor 6) := rfl

/-- V31, PAETH row (P2). -/
theorem test_iEncode_V31 :
    nextHas (exec .iEncode (iState .paeth 2 2 4 [10, 12, 11, 14] []))
      (fun t => packBytes t.bit == frameV31 && t.bit.length == 84 && t.i.err == .ok) = true := by decide

/-- 93_implementation_defined.md U17 and 92_eei_decisions.md D17: a sink that is not empty is refused before the
shape is looked at. -/
theorem test_iEncode_sink_before_shape :
    exec .iEncode (iState .paeth 0 2 0 [] [true]) = .refused .sinkNotEmpty := rfl

/-- V33, the row {8, 3, 0, 1} under GRADIENT: a prediction of -2. -/
theorem test_iEncode_gradient_negative :
    nextHas (exec .iEncode (iState .gradient 2 2 4 [8, 3, 0, 1] []))
      (fun t => packBytes t.bit ==
        [0x00, 0x02, 0x00, 0x02, 0x00, 0x04, 0x50, 0x00, 0xF1, 0x9B, 0xA0]) = true := by decide

/-- P3: the padded frame of V31 decodes to the image. -/
theorem test_iDecode_V31 :
    nextHas (exec .iDecode (iState .paeth 2 2 0 [] (unpackBytes frameV31)))
      (fun t => rasterBytes t.pix 5 == [some 10, some 12, some 11, some 14, none] && t.i.err == .ok) =
      true := by decide

/-- V36: residuals 300 and -400 are clamped to 255 and 0. -/
theorem test_iDecode_clamps :
    nextHas (exec .iDecode (iState .prev 2 1 0 []
        (unpackBytes [0x00, 0x02, 0x00, 0x01, 0x00, 0x40, 0x00, 0x00, 0xFF, 0x98, 0xFF, 0xF3, 0xE0])))
      (fun t => rasterBytes t.pix 2 == [some 255, some 0] && t.i.err == .ok) = true := by decide

theorem test_reservedCmd : exec .reservedCmd1011 State.reset = .refused (.reservedCommand 0b1011) := rfl

/-- V21, the row (3, 6, 5): PAETH ties between L and C go to L; AVERAGE rounds down. -/
theorem test_predictor_selects :
    nextHas (exec (.predPaeth .select) (windowState 3 6 5)) (fun t => t.probe.p == 3) = true ∧
    nextHas (exec (.predAverage .select) (windowState 3 6 5)) (fun t => t.probe.p == 4) = true := by decide

/-- V21, the row (0, 3, 8): truncation toward zero gives -2; JPEG_LS is not clamped. -/
theorem test_gradient_truncates :
    nextHas (exec (.predGradient .select) (windowState 0 3 8)) (fun t => t.probe.p == -2) = true ∧
    nextHas (exec (.predJpegLs .select) (windowState 0 3 8)) (fun t => t.probe.p == -5) = true := by decide

/-- V21, the row (11, 12, 10), the PREV and ABOVE columns. -/
theorem test_prev_above :
    nextHas (exec (.predPrev .select) (windowState 11 12 10)) (fun t => t.probe.p == 11) = true ∧
    nextHas (exec (.predAbove .select) (windowState 11 12 10)) (fun t => t.probe.p == 12) = true := by decide

theorem test_predictor_operands :
    nextHas (exec (.predGradient .operand) State.reset) (fun t => t.i.opPred == 5) = true ∧
    nextHas (exec .predReserved15 State.reset) (fun t => t.i.opPred == 15) = true := by decide

/-- V2: IL(-2) = 3 and SM(-2) = 5. -/
theorem test_modes_forward :
    nextHas (exec (.modeInterleaving .forward) (gValue 5 .interleaving [] (-2))) (fun t => t.probe.n == 3) =
      true ∧
    nextHas (exec (.modeSignMagnitude .forward) (gValue 5 .interleaving [] (-2))) (fun t => t.probe.n == 5) =
      true := by decide

/-- V2: SM_inv(1) = 0 and IL_inv(1) = -1. -/
theorem test_modes_inverse :
    nextHas (exec (.modeSignMagnitude .inverse) (State.reset.setProbe { p := 0, n := 1, v := 9 }))
      (fun t => t.probe.v == 0) = true ∧
    nextHas (exec (.modeInterleaving .inverse) (State.reset.setProbe { p := 0, n := 1, v := 9 }))
      (fun t => t.probe.v == -1) = true := by decide

theorem test_outcomes :
    nextHas (exec (.errMalformed .iUnit) State.reset) (fun t => t.i.err == .malformed && t.g.err == .ok) =
      true ∧
    nextHas (exec (.errInvalidParameter .gUnit) State.reset)
      (fun t => t.g.err == .invalidParameter && t.i.err == .ok) = true := by decide

/-- V35: m = 0 in the header is INVALID_PARAMETER, and MALFORMED when the reserved field is not zero too. -/
theorem test_frameHeader_order :
    nextHas (exec (.frameHeader 2 2 0 3 0) (iState .paeth 2 2 0 [] []))
      (fun t => t.i.err == .invalidParameter) = true ∧
    nextHas (exec (.frameHeader 2 2 0 3 1) (iState .paeth 2 2 0 [] [])) (fun t => t.i.err == .malformed) =
      true := by decide

/-- V14: `1001` under m = 4 is value -3. -/
theorem test_codeword_other_divisor :
    nextHas (exec (.codeword 5 6) (gState 4 .interleaving []))
      (fun t => t.g.resValue == -3 && t.g.resConsumed == 4) = true := by decide

/-- V23: the rows (10, 1), (26, 4), (25, 8) and (26, 8), and the exact tie (1, 3). -/
theorem test_selectM :
    selectM [10] = 7 ∧ selectM [13, -13, 0, 0] = 5 ∧ selectM [1, 0, 0] = 1 ∧ selectM [0, 0] = 1 ∧
    selectM [10, -10, 5, 0, 0, 0, 0, 0] = 2 ∧ selectM [10, 10, -6, 0, 0, 0, 0, 0] = 3 := by decide

/-- The memory after reset has the canonical form, and so has a written one. -/
theorem test_memory_wf :
    State.reset.pix.wf ∧ (Memory.write (Memory.ofBytes [1, 2, 3]) 1 9).wf ∧
    (Memory.write (Memory.ofBytes [1, 2, 3]) 1 9).read 1 = some 9 := by decide

/-! ### Witnesses: the hypotheses of the statements can be met -/

theorem witness_DecodeOfEncode :
    (∀ m' n, Instr.codeword 1 0 = .codeword m' n → m' = 1 ∧ 1 ≤ m') ∧
    ∀ m' n, Instr.frameHeader 65535 65535 65535 15 4095 = .codeword m' n → m' = 1 ∧ 1 ≤ m' := by
  refine ⟨?_, ?_⟩
  · intro m' n h; cases h; decide
  · intro m' n h; cases h

theorem witness_EncodeOfDecodeFixedWidth :
    (∀ S, PortWord.header 0x0001_FFFF_0162_F801 ≠ .codeword S) ∧
    decode 0 (.header 0x0001_FFFF_0162_F801) = .ok (.frameHeader 1 65535 354 15 0x801) := by
  refine ⟨?_, by decide⟩
  intro S h; cases h

theorem witness_CodewordLengthLaw : 1 ≤ 1 ∧ (codewordBits 0 1).length = 1 := by decide

theorem witness_CodewordsPrefixFree : 1 ≤ 5 ∧ codewordBits 6 5 <+: codewordBits 6 5 := by decide

theorem witness_HeaderBitsAndFields :
    headerFits { w := 65535, h := 65535, m := 65535, p := 15, r := 4095 } ∧
    headerFits { w := 0, h := 0, m := 0, p := 0, r := 0 } := by decide

/-- The last bit of a sequence of ten, and the last padding bit of its second byte. -/
theorem witness_PackingContract :
    (packBytes (bits "1111111101"))[9 / 8]? = some 0x40 ∧
    (packBytes (bits "1111111101"))[15 / 8]? = some 0x40 := by decide

theorem witness_DerivedParameters : 1 ≤ 1 ∧ 1 ≤ 2 ^ 0 ∧ 2 ≤ 2 ^ 1 ∧ 1 ≤ clog2 2 ∧ threshold 4 = 0 := by decide

theorem witness_SymbolRoundTrip :
    1 ≤ 1 ∧ decodeSym (bits "0") 0 1 .interleaving = some (0, 1) ∧
    readSymbol (bits "100") 0 3 = some (3, 3) ∧ 3 ≠ 1 ∧
    decodeSym (bits "100") 0 3 .signMagnitude = some (-1, 3) := by decide

/-- The greatest remainder, and the empty one. -/
theorem witness_RemainderInRange :
    1 ≤ 5 ∧ readRemainder (bits "111") 0 5 = some (4, 3) ∧ readRemainder [] 7 1 = some (0, 0) := by decide

theorem witness_SignMappingsInverse : 0 ≠ 1 ∧ 2 ≠ 1 := by decide

theorem witness_SignMappingsOrdered : (-1 : Int).natAbs < (2 : Int).natAbs := by decide

theorem witness_StreamDecodesSymbolBySymbol :
    2 < [((3 : Int), 5), (10, 4), (-7, 1)].length ∧ ∀ p ∈ [((3 : Int), 5), (10, 4), (-7, 1)], 1 ≤ p.2 := by
  decide

theorem witness_GConstructEffect :
    (gOpM 5 .interleaving 0).g.opM = 0 ∧ 65535 < (gOpM 5 .interleaving 65536).g.opM ∧
    (1 ≤ (gOpM 5 .interleaving 1).g.opM ∧ (gOpM 5 .interleaving 1).g.opM ≤ 65535) ∧
    1 ≤ (gOpM 5 .interleaving 65535).g.opM ∧ (gOpM 5 .interleaving 65535).g.opM ≤ 65535 := by decide

theorem witness_GSetmEffect :
    State.reset.g.valid = false ∧
    ((gOpM 5 .interleaving 0).g.valid = true ∧ (gOpM 5 .interleaving 0).g.opM = 0) ∧
    ((gOpM 5 .interleaving 65536).g.valid = true ∧ 65535 < (gOpM 5 .interleaving 65536).g.opM) ∧
    ((gOpM 5 .interleaving 1).g.valid = true ∧ 1 ≤ (gOpM 5 .interleaving 1).g.opM ∧
      (gOpM 5 .interleaving 1).g.opM ≤ 65535) ∧
    (gOpM 5 .interleaving 65535).g.valid = true ∧ 1 ≤ (gOpM 5 .interleaving 65535).g.opM ∧
      (gOpM 5 .interleaving 65535).g.opM ≤ 65535 := by decide

theorem witness_GEncodeEffect :
    State.reset.g.valid = false ∧ (gValue 5 .interleaving [] 2).g.valid = true := by decide

theorem witness_GEncodetoEffect :
    State.reset.g.valid = false ∧ (gValue 5 .interleaving (bits "1001") 2).g.valid = true ∧
    0 < (gValue 5 .interleaving (bits "1001") 2).bit.length := by decide

theorem witness_GDecodeOfEncodedSymbol :
    (gPos 5 .interleaving (bits "0001001") 3).g.valid = true ∧
    1 ≤ (gPos 5 .interleaving (bits "0001001") 3).g.m.toNat ∧
    (gPos 5 .interleaving (bits "0001001") 3).bit =
      bits "000" ++ encodeSym 3 (gPos 5 .interleaving (bits "0001001") 3).g.m.toNat
        (gPos 5 .interleaving (bits "0001001") 3).g.mode ++ [] ∧
    (gPos 5 .interleaving (bits "0001001") 3).g.opPos = (bits "000").length := by decide

/-- Cut inside the codeword, and no bit at all. -/
theorem witness_GDecodeMalformedWhenCut :
    ((gPos 5 .interleaving (bits "101") 0).g.valid = true ∧
      1 ≤ (gPos 5 .interleaving (bits "101") 0).g.m.toNat ∧
      (gPos 5 .interleaving (bits "101") 0).bit.drop 0 <+: codewordBits 7 5 ∧
      ((gPos 5 .interleaving (bits "101") 0).bit.drop 0).length < (codewordBits 7 5).length) ∧
    (gPos 5 .interleaving (bits "1001") 4).bit.drop 4 <+: codewordBits 0 5 ∧
      ((gPos 5 .interleaving (bits "1001") 4).bit.drop 4).length < (codewordBits 0 5).length := by decide

theorem witness_GBitstostrEffect :
    State.reset.g.valid = false ∧ (gState 5 .interleaving (bits "1001")).g.valid = true ∧
    (gState 5 .interleaving (bits "1001")).bit[3]? = some true ∧
    bitsToString (bits "10") = bitsToString (bits "10") := by decide

/-- Two units with different histories: other operand divisor, other results. -/
theorem witness_ParameterStability :
    let s := gPos 5 .interleaving (bits "1001") 0
    let s' := s.setG { s.g with opM := 7, resConsumed := 9, err := .malformed }
    s ≠ s' ∧ s.g.valid = true ∧ s'.g.valid = true ∧ s.g.m = s'.g.m ∧ s.g.mode = s'.g.mode ∧
      s.g.opValue = s'.g.opValue ∧ s.g.opPos = s'.g.opPos ∧ s.bit = s'.bit := by decide

theorem witness_EncodetoAppendsEncodeResult : (gValue 5 .interleaving (bits "1001") 2).g.valid = true := by
  decide

theorem witness_BorderPredictions : 0 < 1 := by decide

/-- A tie between L and C, and a tie between A and C with L further away (V21). -/
theorem witness_PaethPicksClosest :
    ((3 : Int) + 6 - 5 - 3).natAbs = ((3 : Int) + 6 - 5 - predictPaeth 3 6 5).natAbs ∧
    ((6 : Int) + 3 - 5 - 6).natAbs ≠ ((6 : Int) + 3 - 5 - predictPaeth 6 3 5).natAbs ∧
    ((6 : Int) + 3 - 5 - 3).natAbs = ((6 : Int) + 3 - 5 - predictPaeth 6 3 5).natAbs := by decide

theorem witness_ReconstructionClampsAndInverts :
    (-2 : Int) + 1 < 0 ∧ 255 < (100 : Int) + 156 ∧ (0 ≤ (100 : Int) + -100 ∧ (100 : Int) + -100 ≤ 255) ∧
    0 ≤ (100 : Int) + 155 ∧ (100 : Int) + 155 ≤ 255 := by decide

theorem witness_SelectMIsLargestFit :
    sumAbs [0, 0] = 0 ∧ 0 < sumAbs [10, 2, 1, 2] ∧ selectM [10, 2, 1, 2] < 4 ∧
    (sumAbs [10, 2, 1, 2] + [(10 : Int), 2, 1, 2].length) ^ (2 * 3 - 1) ≤
      4 * sumAbs [10, 2, 1, 2] ^ (2 * 3 - 1) := by decide

/-- Both clauses: a mean of 0, and the smallest mean an image can have above it. -/
theorem witness_SelectMComputesRealFormula :
    (0 < [(0 : Int)].length ∧ [(0 : Int)].length ≤ 65535 * 65535 ∧
      (sumAbs [0] : ℝ) / ([(0 : Int)].length : ℝ) < 1 / 10 ^ 10) ∧
    0 < [(1 : Int)].length ∧ [(1 : Int)].length ≤ 65535 * 65535 ∧
      1 / 10 ^ 10 ≤ (sumAbs [1] : ℝ) / ([(1 : Int)].length : ℝ) := by
  refine ⟨⟨by decide, by decide, ?_⟩, by decide, by decide, ?_⟩ <;> norm_num [sumAbs]

theorem witness_SelectMRange :
    (∀ r ∈ [(255 : Int), -255], r.natAbs ≤ 255) ∧ (∀ r ∈ [(382 : Int)], r.natAbs ≤ 382) ∧
    ∀ r ∈ [(-510 : Int)], r.natAbs ≤ 510 := by decide

theorem witness_IConstructEffect :
    5 < (opPredState 6).i.opPred.toNat ∧ 5 < (opPredState 15).i.opPred.toNat ∧
    (opPredState 5).i.opPred.toNat ≤ 5 := by decide

/-- V34: a zero dimension, one above 65535 and a wrong length. -/
theorem witness_IEncodeInvalidShape :
    ((iState .prev 0 2 0 [] []).i.valid = true ∧ (iState .prev 0 2 0 [] []).bit = [] ∧
      (iState .prev 0 2 0 [] []).i.opW = 0) ∧
    65535 < (iState .prev 1 65536 65536 [] []).i.opH ∧
    (iState .prev 2 2 3 [] []).i.opW * (iState .prev 2 2 3 [] []).i.opH ≠
      (iState .prev 2 2 3 [] []).i.opLen := by decide

theorem rasterHolds_image : rasterHolds (iState .paeth 2 2 4 [10, 12, 11, 14] []).pix 4 := by decide

theorem witness_IEncodeWritesFrame :
    (iState .paeth 2 2 4 [10, 12, 11, 14] []).i.valid = true ∧
    dimsLegal (iState .paeth 2 2 4 [10, 12, 11, 14] []) ∧
    (iState .paeth 2 2 4 [10, 12, 11, 14] []).i.opW * (iState .paeth 2 2 4 [10, 12, 11, 14] []).i.opH =
      (iState .paeth 2 2 4 [10, 12, 11, 14] []).i.opLen ∧
    (iState .paeth 2 2 4 [10, 12, 11, 14] []).bit = [] ∧
    rasterHolds (iState .paeth 2 2 4 [10, 12, 11, 14] []).pix (2 * 2) ∧
    dimsLegal (iState .prev 65535 65535 4294836225 [] []) := by decide

/-- Both host failures: a sink that is not empty, with a legal and with an illegal shape, and the last sample
missing. -/
theorem witness_IEncodeHostFailures :
    (iState .paeth 2 2 4 [10, 12, 11] []).i.valid = true ∧
    dimsLegal (iState .paeth 2 2 4 [10, 12, 11] []) ∧
    (iState .paeth 2 2 4 [10, 12, 11] []).i.opW * (iState .paeth 2 2 4 [10, 12, 11] []).i.opH =
      (iState .paeth 2 2 4 [10, 12, 11] []).i.opLen ∧
    (iState .paeth 2 2 4 [10, 12, 11] [true]).bit ≠ [] ∧ (iState .paeth 0 2 0 [] [true]).bit ≠ [] ∧
    (iState .paeth 2 2 4 [10, 12, 11] []).bit = [] ∧
    3 < 2 * 2 ∧ (iState .paeth 2 2 4 [10, 12, 11] []).pix.read 3 = none := by decide

theorem witness_IDecodeReconstructs :
    (iState .prev 2 1 0 [] (unpackBytes
        [0x00, 0x02, 0x00, 0x01, 0x00, 0x40, 0x00, 0x00, 0xFF, 0x98, 0xFF, 0xF3, 0xE0])).i.valid = true ∧
    dimsLegal (iState .prev 2 1 0 [] []) ∧ [(300 : Int), -400].length = 2 * 1 ∧
    unpackBytes [0x00, 0x02, 0x00, 0x01, 0x00, 0x40, 0x00, 0x00, 0xFF, 0x98, 0xFF, 0xF3, 0xE0] =
      Header.toBits { w := 2, h := 1, m := 64, p := 0, r := 0 } ++
        (residualBits 64 [300, -400] ++ bits "00000") := by decide

theorem witness_CursorEndsAtFrameEnd :
    1 ≤ 2 ∧ 1 ≤ 64 ∧ [(300 : Int), -400].length = 2 * 1 ∧
    (Header.toBits { w := 2, h := 1, m := 64, p := 0, r := 0 }).length = 64 := by decide

theorem witness_IDecodeInvalidShape :
    (iState .paeth 0 2 0 [] []).i.valid = true ∧ (iState .paeth 0 2 0 [] []).i.opW = 0 ∧
    65535 < (iState .paeth 2 65536 0 [] []).i.opH := by decide

/-- V35: 63 bits; id field 0110; reserved 1; m = 0. -/
theorem witness_IDecodeHeaderChecks :
    (iState .paeth 2 2 0 [] []).i.valid = true ∧ dimsLegal (iState .paeth 2 2 0 [] []) ∧
    (List.replicate 63 false).length < 64 ∧
    headerFits { w := 2, h := 2, m := 3, p := 6, r := 0 } ∧
    headerFits { w := 2, h := 2, m := 3, p := 3, r := 1 } ∧
    (iState .paeth 2 2 0 [] (Header.toBits { w := 2, h := 2, m := 0, p := 3, r := 0 } ++ [])).bit =
      Header.toBits { w := 2, h := 2, m := 0, p := 3, r := 0 } ++ [] := by decide

/-- V35: no body; the body ends before the last codeword; the body ends inside the last codeword. -/
theorem witness_IDecodeTruncatedBody :
    (iState .paeth 2 2 0 [] []).i.valid = true ∧ dimsLegal (iState .paeth 2 2 0 [] []) ∧ 1 ≤ 3 ∧
    ([] : List Int).length < 2 * 2 ∧ [(10 : Int), 2, 1].length < 2 * 2 ∧ [] <+: codewordBits 4 3 ∧
    bits "101" <+: codewordBits 4 3 ∧ (bits "101").length < (codewordBits 4 3).length ∧
    (unpackBytes frameV31).take 83 =
      Header.toBits { w := 2, h := 2, m := 3, p := 3, r := 0 } ++
        (residualBits 3 [10, 2, 1] ++ bits "101") := by decide

/-- The decoding unit's raster holds other samples, and four padding bits follow the frame. -/
theorem witness_ImageRoundTrip :
    let s := iState .paeth 2 2 4 [10, 12, 11, 14] []
    let u := iState .paeth 2 2 0 [7, 7] (unpackBytes frameV31)
    (u.i.valid = true ∧ u.i.pred = s.i.pred ∧ u.i.opW = s.i.opW ∧ u.i.opH = s.i.opH) ∧
    ∃ t, exec .iEncode s = .next t ∧ decide (t.i.err = .ok ∧ u.bit = t.bit ++ bits "0000") = true :=
  ⟨by decide, exists_next (by decide)⟩

/-- Two units that differ in the G unit and above the raster of the image. -/
theorem witness_FrameDependsOnImageOnly :
    let s := iState .paeth 2 2 4 [10, 12, 11, 14] []
    let s' := (iState .paeth 2 2 4 [10, 12, 11, 14, 9] []).setG { GUnit.reset with valid := true }
    (s.i.pred = s'.i.pred ∧ s.i.opW = s'.i.opW ∧ s.i.opH = s'.i.opH ∧
      ∀ a : Nat, a < s.i.opW * s.i.opH → s.pix.read a = s'.pix.read a) ∧
    (∃ t, exec .iEncode s = .next t ∧ (t.i.err == .ok) = true) ∧
    ∃ t', exec .iEncode s' = .next t' ∧ (t'.i.err == .ok) = true :=
  ⟨by decide, exists_next (by decide), exists_next (by decide)⟩

theorem witness_ImageDependsOnFrameOnly :
    let s := iState .paeth 2 2 0 [] (unpackBytes frameV31)
    let s' := iState .paeth 2 2 0 [7, 7] (unpackBytes frameV31)
    s ≠ s' ∧ s.i.valid = true ∧ s'.i.valid = true ∧ s.i.pred = s'.i.pred ∧ s.i.opW = s'.i.opW ∧
      s.i.opH = s'.i.opH ∧ s.bit = s'.bit := by decide

theorem witness_PredictorWords :
    (windowState 255 0 255).fr.l.toNat = 255 ∧ (windowState 255 0 255).fr.a.toNat = 0 ∧
    (windowState 255 0 255).fr.c.toNat = 255 := by decide

theorem witness_ModeWords :
    (State.reset.setProbe { p := 0, n := 5, v := 0 }).probe.n = signMag (-2) ∧
    (State.reset.setProbe { p := 0, n := 5, v := 0 }).probe.n = interleave (-3) := by decide

theorem witness_HeaderWord :
    (iState .paeth 65535 1 0 [] []).i.valid = true ∧ dimsLegal (iState .paeth 65535 1 0 [] []) ∧
    ((65535 : BitVec 16).toNat = (iState .paeth 65535 1 0 [] []).i.opW ∧
      (1 : BitVec 16).toNat = (iState .paeth 65535 1 0 [] []).i.opH ∧
      (3 : BitVec 4) = (iState .paeth 65535 1 0 [] []).i.pred.code) ∧
    (1 : BitVec 16) ≠ 0 ∧ (2 : BitVec 16).toNat ≠ (iState .paeth 65535 1 0 [] []).i.opW ∧
    (6 : BitVec 4) ≠ (iState .paeth 65535 1 0 [] []).i.pred.code := by decide

theorem witness_CodewordWord :
    (gState 1 .interleaving []).g.valid = true ∧ 1 ≤ 1 ∧ (gState 1 .interleaving []).g.m.toNat = 1 ∧
    (gState 4 .interleaving []).g.m.toNat ≠ 5 := by decide

theorem witness_ReservedCommandsRefused :
    (Instr.reservedCmd1111, (0b1111 : BitVec 4)) ∈
      [(Instr.reservedCmd0110, (0b0110 : BitVec 4)), (.reservedCmd1111, 0b1111)] ∧
    (State.reset.setInbox [.word (.cmd 0b1111)]).inbox = .word (.cmd 0b1111) :: [] := by decide

theorem witness_UnconstructedRefused : State.reset.g.valid = false ∧ State.reset.i.valid = false := by decide

theorem witness_InvalidParameterCauses :
    (∃ t, exec .gSetm (gOpM 5 .interleaving 0) = .next t ∧ (t.g.err == .invalidParameter) = true) ∧
    (∃ t, exec .gConstruct (gOpM 5 .interleaving 65535) = .next t ∧ (t.g.err == .ok) = true) ∧
    (∃ t, exec .gEncode (gState 5 .interleaving []) = .next t ∧ (t.g.err == .ok) = true) ∧
    (∃ t, exec .iConstruct State.reset = .next t ∧ (t.i.err == .ok) = true) ∧
    ∃ t, exec .iDecode (iState .paeth 2 2 0 []
        (Header.toBits { w := 2, h := 2, m := 0, p := 3, r := 0 })) = .next t ∧
      (t.i.err == .invalidParameter) = true :=
  ⟨exists_next (by decide), exists_next (by decide), exists_next (by decide), exists_next (by decide),
    exists_next (by decide)⟩

theorem witness_InvalidShapeCauses :
    (∃ t, exec .iEncode (iState .paeth 2 2 3 [] []) = .next t ∧ (t.i.err == .invalidShape) = true) ∧
    (∃ t, exec .iDecode (iState .paeth 2 65536 0 [] []) = .next t ∧ (t.i.err == .invalidShape) = true) ∧
    (∃ t, exec .iConstruct State.reset = .next t ∧ (t.i.err == .ok) = true) ∧
    ∃ t, exec .gDecode (gState 5 .interleaving []) = .next t ∧ (t.g.err == .malformed) = true :=
  ⟨exists_next (by decide), exists_next (by decide), exists_next (by decide), exists_next (by decide)⟩

theorem witness_MalformedOnlyFromSources :
    (∃ t, exec .gBitstostr (gState 5 .interleaving []) = .next t ∧ (t.g.err == .ok) = true) ∧
    (∃ t, exec .iEncode (iState .paeth 2 2 3 [] []) = .next t ∧ (t.i.err == .invalidShape) = true) ∧
    1 ≤ (gState 5 .interleaving []).g.m.toNat ∧
    (∃ t, exec .gDecode (gState 5 .interleaving (bits "1001")) = .next t ∧ (t.g.err == .ok) = true) ∧
    ∃ t, exec .gDecode (gState 5 .interleaving (bits "100")) = .next t ∧ (t.g.err == .malformed) = true :=
  ⟨exists_next (by decide), exists_next (by decide), by decide, exists_next (by decide),
    exists_next (by decide)⟩

theorem witness_ErrorsKeepConfiguration :
    (∃ t, exec .gSetm (gOpM 5 .interleaving 0) = .next t ∧ (t.g.err != .ok) = true) ∧
    (∃ t, exec .iConstruct State.reset = .next t ∧ (t.i.err == .ok) = true) ∧
    (∃ t, exec .iEncode (iState .paeth 0 2 0 [] []) = .next t ∧ (t.i.err != .ok) = true) ∧
    ∃ t, exec .iDecode (iState .paeth 2 2 0 [] ((unpackBytes frameV31).take 83)) = .next t ∧
      (t.i.err != .ok) = true :=
  ⟨exists_next (by decide), exists_next (by decide), exists_next (by decide), exists_next (by decide)⟩

theorem witness_ConfigurationWriters :
    Instr.gEncode ≠ .gConstruct ∧ Instr.gEncode ≠ .gSetm ∧ Instr.gEncode ≠ .iConstruct ∧
    ∃ t, exec .gEncode (gState 5 .interleaving []) = .next t ∧ (t.g.err == .ok) = true :=
  ⟨by decide, by decide, by decide, exists_next (by decide)⟩

theorem witness_UnitsIndependent :
    (∃ t, exec .iDecode (iState .paeth 2 2 0 [] (unpackBytes frameV31)) = .next t ∧
      (t.i.err == .ok) = true) ∧
    ∃ t, exec .gEncodeto (gState 5 .interleaving []) = .next t ∧ (t.g.err == .ok) = true :=
  ⟨exists_next (by decide), exists_next (by decide)⟩

theorem witness_StepRunsDecodedInstruction :
    (State.reset.setInbox [.word (.codeword (bits "0")), .reset]).inbox =
      .word (.codeword (bits "0")) :: [.reset] ∧
    decode State.reset.g.m.toNat (.codeword (bits "0")) = .ok (.codeword 1 0) := by decide

theorem witness_StepServesHost :
    State.reset.inbox = [] ∧ (State.reset.setInbox [.opM 0]).inbox = .opM 0 :: [] ∧
    (State.reset.setInbox [.opPos 26]).inbox = .opPos 26 :: [] ∧
    (State.reset.setInbox [.opW 65536, .reset]).inbox = .opW 65536 :: [.reset] ∧
    (State.reset.setInbox [.opH 0]).inbox = .opH 0 :: [] ∧
    (State.reset.setInbox [.opLen 4294836225]).inbox = .opLen 4294836225 :: [] ∧
    (State.reset.setInbox [.opValue (-7)]).inbox = .opValue (-7) :: [] ∧
    (State.reset.setInbox [.bits (bits "10")]).inbox = .bits (bits "10") :: [] ∧
    (State.reset.setInbox [.packedBits [0x9F, 0x80]]).inbox = .packedBits [0x9F, 0x80] :: [] ∧
    (State.reset.setInbox [.raster [10, 255]]).inbox = .raster [10, 255] :: [] ∧
    ((gState 5 .interleaving []).setInbox [.word (.codeword (bits "10"))]).inbox =
      [.word (.codeword (bits "10"))] ∧
    readSymbol (bits "10") 0 (gState 5 .interleaving []).g.m.toNat = none ∧
    (gState 5 .interleaving []).g.valid = true ∧
    5 < (6 : BitVec 4).toNat ∧
    (State.reset.setInbox [.word (.pred .select 6)]).inbox = [.word (.pred .select 6)] := by decide

theorem witness_ResetLeaves :
    ((gState 5 .interleaving []).setInbox [.reset, .opM 3]).inbox = .reset :: [.opM 3] := by decide

/-- The invariant holds of a constructed unit, and the step from it answers a next state. -/
theorem witness_StepKeepsInvariant :
    (gOpM 5 .interleaving 32769).inv ∧
    ∃ t, step ((gOpM 5 .interleaving 32769).setInbox [.word (.cmd 0b0001)]) = .next t ∧
      (t.g.t == 32767) = true :=
  ⟨by decide, exists_next (by decide)⟩

end Sys2Proof.Tests
end

section
/-! PROOF. What the operations leave of the configuration, the invariant of the machine, and the
independence of the two units (10_state.md). -/

namespace Sys2Proof.Machine

/-! ### The derived values of the divisor (40_golomb_config.md rules R100, R101) -/

/-- The upward search stops at Mathlib's ceiling logarithm, if its fuel reaches that far. -/
theorem clog2From_eq_clog {fuel k m : Nat} (hk : k ≤ Nat.clog 2 m) (hf : Nat.clog 2 m ≤ k + fuel) :
    clog2From fuel k m = Nat.clog 2 m := by
  induction fuel generalizing k with
  | zero => exact Nat.le_antisymm hk hf
  | succ fuel ih =>
    have hle : Nat.clog 2 m ≤ k ↔ m ≤ 2 ^ k := Nat.clog_le_iff_le_pow Nat.one_lt_two
    simp only [clog2From]
    split
    · next h => exact Nat.le_antisymm hk (hle.2 h)
    · next h => exact ih (Nat.lt_of_not_le (mt hle.1 h)) (by omega)

theorem clog2_eq_clog (m : Nat) : clog2 m = Nat.clog 2 m :=
  clog2From_eq_clog (Nat.zero_le _)
    ((Nat.clog_le_of_le_pow Nat.lt_two_pow_self.le).trans (Nat.le_add_left m 0))

theorem clog2_le_of_le_two_pow {m k : Nat} (h : m ≤ 2 ^ k) : clog2 m ≤ k :=
  clog2_eq_clog m ▸ Nat.clog_le_of_le_pow h

theorem two_pow_clog2_lt_two_mul {m : Nat} (h : 1 ≤ m) : 2 ^ clog2 m < 2 * m := by
  rw [clog2_eq_clog]
  rcases h.eq_or_lt with rfl | h1
  · simp
  · have hpos : 0 < Nat.clog 2 m := Nat.clog_pos Nat.one_lt_two h1
    have hlt : 2 ^ (Nat.clog 2 m).pred < m := Nat.pow_pred_clog_lt_self Nat.one_lt_two h1
    calc 2 ^ Nat.clog 2 m = 2 * 2 ^ (Nat.clog 2 m).pred := by
          rw [← pow_succ', Nat.pred_eq_sub_one, Nat.sub_add_cancel hpos]
      _ < 2 * m := by omega

theorem threshold_lt_two_pow {m k : Nat} (h1 : 1 ≤ m) (hk : m ≤ 2 ^ (k + 1)) : threshold m < 2 ^ k := by
  have hpow : 2 ^ clog2 m ≤ 2 ^ (k + 1) := Nat.pow_le_pow_right Nat.two_pos (clog2_le_of_le_two_pow hk)
  have hlt := two_pow_clog2_lt_two_mul h1
  rw [pow_succ'] at hpow
  unfold threshold
  omega

/-- G.M, G.B and G.T are wide enough for every divisor the unit accepts (10_state.md rules R11 to R13). -/
theorem GUnit.inv_writeDivisor {m : Nat} (h1 : 1 ≤ m) (hm : m ≤ Config.mMax) (g : GUnit) :
    (g.writeDivisor m).inv := by
  have hm16 : m < 2 ^ 16 := Nat.lt_succ_of_le hm
  have hM : (BitVec.ofNat 16 m).toNat = m := (BitVec.toNat_ofNat m 16).trans (Nat.mod_eq_of_lt hm16)
  have hB : clog2 m < 2 ^ 5 := by
    have := clog2_le_of_le_two_pow hm16.le
    omega
  have hT : threshold m < 2 ^ 15 := threshold_lt_two_pow h1 hm16.le
  refine ⟨?_, ?_, ?_, rfl⟩
  · rwa [GUnit.writeDivisor_m, hM]
  · rw [GUnit.writeDivisor_m, GUnit.writeDivisor_b, hM, BitVec.toNat_ofNat, Nat.mod_eq_of_lt hB]
  · rw [GUnit.writeDivisor_m, GUnit.writeDivisor_t, hM, BitVec.toNat_ofNat, Nat.mod_eq_of_lt hT]

theorem GUnit.inv_reset : GUnit.reset.inv := by decide

/-! ### What keeps the configuration -/

/-- The configuration registers of both units. -/
def State.config (s : State) :
    (Bool × BitVec 16 × BitVec 5 × BitVec 15 × SignMode × ParamState) × Bool × Predictor :=
  ((s.g.valid, s.g.m, s.g.b, s.g.t, s.g.mode, s.g.pstate), s.i.valid, s.i.pred)

theorem State.config_eq_iff {s t : State} :
    t.config = s.config ↔ gConfigKept s t ∧ iConfigKept s t := by
  simp [State.config]

/-- From `s` to `t` the configuration is kept, and so is the raster's canonical form. -/
structure ConfigKept (s t : State) : Prop where
  config : t.config = s.config
  wf : s.pix.wf → t.pix.wf

theorem ConfigKept.kept {s t : State} (h : ConfigKept s t) : gConfigKept s t ∧ iConfigKept s t :=
  State.config_eq_iff.1 h.config

theorem configKept_deliver (u : UnitId) (k : ErrCode) (s : State) : ConfigKept s (s.deliver u k) := by
  cases u with
  | gUnit => exact ⟨rfl, id⟩
  | iUnit => exact ⟨rfl, id⟩

theorem configKept_failGDecode (s : State) : ConfigKept s (failGDecode s) := by
  obtain ⟨v, k, h⟩ := failGDecode_spec s
  rw [h]
  exact ⟨rfl, id⟩

theorem configKept_gDecodeAt (S : BitSeq) (pos : Nat) (s : State) :
    ConfigKept s (gDecodeAt S pos s) := by
  rcases gDecodeAt_cases S pos s with ⟨v, k, -, h⟩ | ⟨-, h⟩ <;> rw [h]
  · exact ⟨rfl, id⟩
  · exact configKept_failGDecode s

theorem configKept_endImage_setBit (k : ErrCode) (S : BitSeq) (s : State) :
    ConfigKept s (endImage k (s.setBit S)) := by
  obtain ⟨fr, h⟩ := endImage_spec k (s.setBit S)
  rw [h]
  exact ⟨rfl, id⟩

theorem configKept_endImage_setPix (k : ErrCode) {m : Memory} {s : State} (hm : s.pix.wf → m.wf) :
    ConfigKept s (endImage k (s.setPix m)) := by
  obtain ⟨fr, h⟩ := endImage_spec k (s.setPix m)
  rw [h]
  exact ⟨rfl, hm⟩

theorem configKept_failIEncode (k : ErrCode) (s : State) : ConfigKept s (failIEncode k s) :=
  configKept_endImage_setBit k _ s

theorem configKept_failIDecode (k : ErrCode) (s : State) : ConfigKept s (failIDecode k s) :=
  configKept_endImage_setPix k fun hm => Memory.wf_replaceBelow hm _ _

theorem configKept_decodeBody {gm : Nat} {s t : State} (h : decodeBody gm s = .next t) :
    ConfigKept s t := by
  rcases decodeBody_eq_next h with ⟨cur, m, hp, rfl⟩ | rfl
  · exact configKept_endImage_setPix .ok fun hm => decodePass_wf hm hp
  · exact configKept_failIDecode .malformed s

theorem configKept_execIEncode {s t : State} (h : execIEncode s = .next t) : ConfigKept s t := by
  obtain ⟨-, -, ⟨-, rfl⟩ | ⟨-, F, -, rfl⟩⟩ := execIEncode_eq_next h
  · exact configKept_failIEncode .invalidShape s
  · exact configKept_endImage_setBit .ok F s

theorem configKept_execIDecode {s t : State} (h : execIDecode s = .next t) : ConfigKept s t := by
  obtain ⟨-, ⟨k, -, rfl⟩ | ⟨hd, -, -, hb⟩⟩ := execIDecode_eq_next h
  · exact configKept_failIDecode k s
  · exact configKept_decodeBody hb

theorem configKept_execFrameHeader {w h m : BitVec 16} {p : BitVec 4} {r : BitVec 12} {s t : State}
    (he : execFrameHeader w h m p r s = .next t) : ConfigKept s t := by
  obtain ⟨-, ⟨k, -, rfl⟩ | rfl⟩ := execFrameHeader_eq_next he
  · exact configKept_deliver .iUnit k s
  · exact ⟨rfl, id⟩

theorem configKept_writeOpPred (code : BitVec 4) (s : State) : ConfigKept s (writeOpPred code s) :=
  ⟨rfl, id⟩

theorem configKept_selectPredictor {code : BitVec 4} {f : Int → Int → Int → Int} {place : PredPlace}
    {s t : State} (h : selectPredictor code f place s = .next t) : ConfigKept s t := by
  rcases selectPredictor_spec code f place s with h' | h' <;> cases h'.symm.trans h
  · exact configKept_writeOpPred code s
  · exact ⟨rfl, id⟩

theorem configKept_selectMode {mode : SignMode} {place : ModePlace} {s t : State}
    (h : selectMode mode place s = .next t) : ConfigKept s t := by
  rcases selectMode_spec mode place s with h' | ⟨p, h'⟩ <;> cases h'.symm.trans h
  · exact ⟨rfl, id⟩
  · exact ⟨rfl, id⟩

/-- What an instruction can do to the configuration: keep it, or be one of the three writers, which then
ends without an error. -/
theorem exec_config_cases {i : Instr} {s t : State} (h : exec i s = .next t) :
    ConfigKept s t ∨
    (i = .gConstruct ∧ 1 ≤ s.g.opM ∧ s.g.opM ≤ Config.mMax ∧
      t = s.setG { s.g.writeDivisor s.g.opM with mode := s.g.opMode, valid := true, err := .ok }) ∨
    (i = .gSetm ∧ 1 ≤ s.g.opM ∧ s.g.opM ≤ Config.mMax ∧
      t = s.setG { s.g.writeDivisor s.g.opM with err := .ok }) ∨
    (i = .iConstruct ∧ ∃ pred, t = s.setI { s.i with pred := pred, valid := true, err := .ok }) := by
  cases i with
  | gConstruct =>
    rcases execGConstruct_eq_next h with ⟨-, rfl⟩ | ⟨h1, hmax, ht⟩
    · exact .inl (configKept_deliver .gUnit _ s)
    · exact .inr (.inl ⟨rfl, h1, hmax, ht⟩)
  | gSetm =>
    obtain ⟨-, ⟨-, rfl⟩ | ⟨h1, hmax, ht⟩⟩ := execGSetm_eq_next h
    · exact .inl (configKept_deliver .gUnit _ s)
    · exact .inr (.inr (.inl ⟨rfl, h1, hmax, ht⟩))
  | iConstruct =>
    obtain ⟨pred, -, ht⟩ := execIConstruct_eq_next h
    exact .inr (.inr (.inr ⟨rfl, pred, ht⟩))
  | gEncode | gEncodeto | gBitstostr =>
    obtain ⟨-, rfl⟩ := requireG_eq_next h
    exact .inl ⟨rfl, id⟩
  | gDecode =>
    obtain ⟨-, rfl⟩ := requireG_eq_next h
    exact .inl (configKept_gDecodeAt _ _ s)
  | codeword m n =>
    obtain ⟨-, rfl⟩ := requireG_eq_next h
    exact .inl (configKept_gDecodeAt _ _ s)
  | iEncode => exact .inl (configKept_execIEncode h)
  | iDecode => exact .inl (configKept_execIDecode h)
  | frameHeader w h' m p r => exact .inl (configKept_execFrameHeader h)
  | reservedCmd0110 | reservedCmd0111 | reservedCmd1011 | reservedCmd1100 | reservedCmd1101
  | reservedCmd1110 | reservedCmd1111 => cases h
  | predPrev place | predAbove place | predAverage place | predPaeth place | predJpegLs place
  | predGradient place => exact .inl (configKept_selectPredictor h)
  | predReserved6 | predReserved7 | predReserved8 | predReserved9 | predReserved10 | predReserved11
  | predReserved12 | predReserved13 | predReserved14 | predReserved15 =>
    cases h
    exact .inl (configKept_writeOpPred _ s)
  | modeSignMagnitude place | modeInterleaving place => exact .inl (configKept_selectMode h)
  | errOk u | errInvalidParameter u | errInvalidShape u | errMalformed u =>
    cases h
    exact .inl (configKept_deliver u _ s)

/-- Settles O54: each writer leaves the registers that are not its own. -/
theorem configurationWriters : Obligations.ConfigurationWriters := by
  intro i s t h
  rcases exec_config_cases h with
    hk | ⟨rfl, -, -, rfl⟩ | ⟨rfl, -, -, rfl⟩ | ⟨rfl, pred, rfl⟩
  · obtain ⟨⟨hvalid, hM, hB, hT, hmode, hstate⟩, hIvalid, hpred⟩ := hk.kept
    exact ⟨fun _ _ => ⟨hM, hB, hT, hstate⟩, fun _ => ⟨hmode, hvalid⟩, fun _ => ⟨hpred, hIvalid⟩⟩
  · exact ⟨fun hc => absurd rfl hc, fun hc => absurd rfl hc, fun _ => by simp⟩
  · exact ⟨fun _ hm => absurd rfl hm, fun _ => by simp, fun _ => by simp⟩
  · exact ⟨fun _ _ => by simp, fun _ => by simp, fun hi => absurd rfl hi⟩

/-! ### The invariant -/

theorem ConfigKept.inv {s t : State} (h : ConfigKept s t) (hs : s.inv) : t.inv := by
  obtain ⟨⟨-, hM, hB, hT, -, hstate⟩, -⟩ := h.kept
  refine ⟨?_, h.wf hs.2⟩
  rw [GUnit.inv, hM, hB, hT, hstate]
  exact hs.1

theorem exec_keeps_inv {i : Instr} {s t : State} (hs : s.inv) (h : exec i s = .next t) : t.inv := by
  rcases exec_config_cases h with
    hk | ⟨-, h1, hmax, rfl⟩ | ⟨-, h1, hmax, rfl⟩ | ⟨-, pred, rfl⟩
  · exact hk.inv hs
  · exact ⟨s.g.inv_writeDivisor h1 hmax, hs.2⟩
  · exact ⟨s.g.inv_writeDivisor h1 hmax, hs.2⟩
  · exact hs

theorem hostWrite_keeps_inv {s : State} (hs : s.inv) (r : Request) : (hostWrite r s).inv := by
  refine ⟨?_, Memory.wf_hostWrite hs.2 r⟩
  cases r with
  | reset => exact GUnit.inv_reset
  | _ => exact hs.1

/-- Settles O60: a host write, an instruction and a truncated codeword each keep the invariant. -/
theorem stepKeepsInvariant : Obligations.StepKeepsInvariant := by
  intro s t hs h
  have htaken : ∀ rest, (s.setInbox rest).inv := fun _ => hs
  rcases step_eq_next h with
    ⟨-, rfl⟩ | ⟨r, rest, -, -, rfl⟩ | ⟨p, rest, i, -, -, hx⟩ | ⟨p, rest, -, -, -, rfl⟩
  · exact hs
  · exact hostWrite_keeps_inv (htaken rest) r
  · exact exec_keeps_inv (htaken rest) hx
  · exact (configKept_failGDecode _).inv (htaken rest)

/-- Settles O59. -/
theorem resetMeetsInvariant : Obligations.ResetMeetsInvariant :=
  ⟨GUnit.inv_reset, List.Pairwise.nil⟩

/-! ### A step by the head of the queue -/

theorem step_of_word {s : State} {p : PortWord} {rest : List Request} {i : Instr}
    (hq : s.inbox = .word p :: rest) (hd : decode s.g.m.toNat p = .ok i) :
    step s = exec i (s.setInbox rest) := by
  simp [step, fetch, hq, hd]

theorem step_of_reset {s : State} {rest : List Request} (hq : s.inbox = .reset :: rest) :
    step s = .next (hostReset (s.setInbox rest)) := by
  simp [step, fetch, hq, hostWrite]

/-- Settles O56. -/
theorem stepRunsDecodedInstruction : Obligations.StepRunsDecodedInstruction :=
  fun _ _ _ _ hq hd => step_of_word hq hd

/-- Settles O58: a reset replaces the registers of both units by their reset values and nothing else. -/
theorem resetLeaves : Obligations.ResetLeaves := by
  refine ⟨by decide, fun s rest hq => ⟨_, step_of_reset hq, ?_⟩⟩
  refine ⟨rfl, rfl, rfl, rfl, rfl, ?bits, ?raster, rfl⟩
  case bits => exact ⟨rfl, fun _ => rfl⟩
  case raster => exact fun _ => rfl

/-! ### Independence of the two units (10_state.md rule R10) -/

/-- Apply `f` to the state of an outcome that has one. -/
def mapNext (f : State → State) :
    Host.Outcome State Fault Refusal → Host.Outcome State Fault Refusal
  | .next s => .next (f s)
  | .fault r => .fault r
  | .refused r => .refused r

@[simp] theorem mapNext_next (f : State → State) (s : State) : mapNext f (.next s) = .next (f s) := rfl

/-- Replace the registers of the I unit, the transient ones too. -/
def State.setImage (u : IUnit) (fr : Transients) (s : State) : State := (s.setI u).setFr fr

@[simp] theorem State.setImage_g (u : IUnit) (fr : Transients) (s : State) :
    (s.setImage u fr).g = s.g := rfl
@[simp] theorem State.setImage_i (u : IUnit) (fr : Transients) (s : State) :
    (s.setImage u fr).i = u := rfl
@[simp] theorem State.setImage_fr (u : IUnit) (fr : Transients) (s : State) :
    (s.setImage u fr).fr = fr := rfl

/-- A choice commutes with an update that does not touch its condition, if both branches do. -/
theorem mapNext_ite {p : Prop} [Decidable p] {f : State → State}
    {a a' b b' : Host.Outcome State Fault Refusal} (ha : a' = mapNext f a) (hb : b' = mapNext f b) :
    (if p then a' else b') = mapNext f (if p then a else b) := by
  split
  · exact ha
  · exact hb

theorem requireI_setG {g : GUnit} {s : State} {k k' : Host.Outcome State Fault Refusal}
    (h : k' = mapNext (.setG g) k) : requireI (s.setG g) k' = mapNext (.setG g) (requireI s k) :=
  mapNext_ite h rfl

theorem requireG_setImage {u : IUnit} {fr : Transients} {s n n' : State} (h : n' = n.setImage u fr) :
    requireG (s.setImage u fr) n' = mapNext (.setImage u fr) (requireG s n) :=
  mapNext_ite (congrArg _ h) rfl

theorem execIConstruct_setG (g : GUnit) (s : State) :
    execIConstruct (s.setG g) = mapNext (.setG g) (execIConstruct s) := by
  simp only [execIConstruct, State.setG_i]
  cases Predictor.ofId s.i.opPred.toNat with
  | none => rfl
  | some pred => rfl

theorem execIEncode_setG (g : GUnit) (s : State) :
    execIEncode (s.setG g) = mapNext (.setG g) (execIEncode s) := by
  refine requireI_setG (mapNext_ite rfl (mapNext_ite rfl ?_))
  simp only [State.setG_i, State.setG_pix]
  cases encodeImage s.i.pred s.pix s.i.opW s.i.opH with
  | error addr => rfl
  | ok F => rfl

theorem decodeBody_setG (gm : Nat) (g : GUnit) (s : State) :
    decodeBody gm (s.setG g) = mapNext (.setG g) (decodeBody gm s) := by
  simp only [decodeBody, State.setG_bit, State.setG_i, State.setG_pix]
  cases decodePass s.i.pred s.bit s.i.opW gm (s.i.opW * s.i.opH) (0, 0) 64 s.pix with
  | done cur m => rfl
  | truncated => rfl
  | absent addr => rfl

theorem execIDecode_setG (g : GUnit) (s : State) :
    execIDecode (s.setG g) = mapNext (.setG g) (execIDecode s) := by
  refine requireI_setG (mapNext_ite rfl ?_)
  simp only [State.setG_bit, State.setG_i]
  cases readHeader s.bit with
  | none => rfl
  | some hd =>
    dsimp only
    cases headerCheck s.i.opW s.i.opH s.i.pred hd with
    | ok => exact decodeBody_setG hd.m g s
    | invalidParameter | invalidShape | malformed => rfl

theorem gDecodeAt_setImage (S : BitSeq) (pos : Nat) (u : IUnit) (fr : Transients) (s : State) :
    gDecodeAt S pos (s.setImage u fr) = (gDecodeAt S pos s).setImage u fr := by
  simp only [gDecodeAt, State.setImage_g]
  cases decodeSym S pos s.g.m.toNat s.g.mode with
  | none => rfl
  | some vk => rfl

theorem execGConstruct_setImage (u : IUnit) (fr : Transients) (s : State) :
    execGConstruct (s.setImage u fr) = mapNext (.setImage u fr) (execGConstruct s) :=
  mapNext_ite rfl (mapNext_ite rfl rfl)

theorem execGSetm_setImage (u : IUnit) (fr : Transients) (s : State) :
    execGSetm (s.setImage u fr) = mapNext (.setImage u fr) (execGSetm s) :=
  mapNext_ite rfl (mapNext_ite rfl (mapNext_ite rfl rfl))

/-- The image operations commute with replacing the registers of the G unit, whatever their outcome. -/
theorem exec_setG {i : Instr} (hi : i ∈ [Instr.iConstruct, .iEncode, .iDecode]) (g : GUnit) (s : State) :
    exec i (s.setG g) = mapNext (.setG g) (exec i s) := by
  simp only [List.mem_cons, List.not_mem_nil, or_false] at hi
  rcases hi with rfl | rfl | rfl
  · exact execIConstruct_setG g s
  · exact execIEncode_setG g s
  · exact execIDecode_setG g s

/-- The Golomb operations commute with replacing the registers of the I unit, whatever their outcome. -/
theorem exec_setImage {i : Instr}
    (hi : i ∈ [Instr.gConstruct, .gSetm, .gEncode, .gEncodeto, .gDecode, .gBitstostr])
    (u : IUnit) (fr : Transients) (s : State) :
    exec i (s.setImage u fr) = mapNext (.setImage u fr) (exec i s) := by
  simp only [List.mem_cons, List.not_mem_nil, or_false] at hi
  rcases hi with rfl | rfl | rfl | rfl | rfl | rfl
  · exact execGConstruct_setImage u fr s
  · exact execGSetm_setImage u fr s
  · exact requireG_setImage rfl
  · exact requireG_setImage rfl
  · exact requireG_setImage (gDecodeAt_setImage _ _ u fr s)
  · exact requireG_setImage rfl

theorem exec_eq_next_of_commutes {i : Instr} {f : State → State} {s t : State}
    (hf : exec i (f s) = mapNext f (exec i s)) (h : exec i s = .next t) :
    exec i (f s) = .next (f t) := by
  rw [hf, h, mapNext_next]

/-- Settles O55. That an operation does not write the other unit follows from commuting with the
replacement that puts the other unit's own registers back: it changes nothing before the operation,
so it changes nothing after it. -/
theorem unitsIndependent : Obligations.UnitsIndependent := by
  constructor
  · intro i hi s t g h
    have hcomm := fun g => exec_eq_next_of_commutes (exec_setG hi g s) h
    have hkept : t = t.setG s.g := Host.Outcome.next.inj (h.symm.trans (hcomm s.g))
    exact ⟨by rw [hkept, State.setG_g], hcomm g⟩
  · intro i hi s t u fr h
    have hcomm := fun u fr => exec_eq_next_of_commutes (exec_setImage hi u fr s) h
    have hkept : t = t.setImage s.i s.fr := Host.Outcome.next.inj (h.symm.trans (hcomm s.i s.fr))
    exact ⟨by rw [hkept, State.setImage_i], by rw [hkept, State.setImage_fr], hcomm u fr⟩

end Sys2Proof.Machine
end

section
/-! PROOF. Numbers as bits (00_scope.md rule R6) and the packing of bits into bytes (20_memory.md
rule R44). -/

namespace Sys2Proof

/-! ### Numbers as bits -/

@[simp] theorem bitsOf_zero (v : Nat) : bitsOf v 0 = [] := rfl

theorem bitsOf_succ (v k : Nat) : bitsOf v (k + 1) = v.testBit k :: bitsOf v k := by
  rw [bitsOf, Nat.testBit_eq_decide_div_mod_eq]
  rfl

@[simp] theorem length_bitsOf (v k : Nat) : (bitsOf v k).length = k := by
  induction k with
  | zero => rfl
  | succ k ih => rw [bitsOf_succ, List.length_cons, ih]

theorem getElem?_bitsOf {v k j : Nat} (h : j < k) : (bitsOf v k)[j]? = some (v.testBit (k - 1 - j)) := by
  induction k generalizing j with
  | zero => omega
  | succ k ih =>
    rw [bitsOf_succ]
    cases j with
    | zero => rfl
    | succ j =>
      rw [List.getElem?_cons_succ, ih (by omega), show k + 1 - 1 - (j + 1) = k - 1 - j by omega]

/-- Appending a bit to a number's bits doubles the number and adds the bit. -/
theorem bitsOf_two_mul_add_toNat (v k : Nat) (b : Bool) :
    bitsOf (2 * v + b.toNat) (k + 1) = bitsOf v k ++ [b] := by
  induction k with
  | zero => cases b <;> simp [bitsOf_succ, Nat.testBit_zero]
  | succ k ih =>
    have hhalf : (2 * v + b.toNat) / 2 = v := by have := b.toNat_lt; omega
    rw [bitsOf_succ, ih, bitsOf_succ v, Nat.testBit_succ, hhalf, List.cons_append]

theorem valOf_concat (T : BitSeq) (b : Bool) : valOf (T ++ [b]) = 2 * valOf T + b.toNat := by
  simp [valOf]

theorem valOf_lt_two_pow_length (T : BitSeq) : valOf T < 2 ^ T.length := by
  induction T using List.reverseRecOn with
  | nil => decide
  | append_singleton T b ih =>
    have := b.toNat_lt
    rw [valOf_concat, List.length_append, List.length_singleton, Nat.pow_succ]
    omega

theorem bitsOf_valOf (T : BitSeq) : bitsOf (valOf T) T.length = T := by
  induction T using List.reverseRecOn with
  | nil => rfl
  | append_singleton T b ih =>
    rw [valOf_concat, List.length_append, List.length_singleton, bitsOf_two_mul_add_toNat, ih]

/-! ### One packed byte -/

theorem getElem?_append_zeros (S : BitSeq) {k p : Nat} (h : p < S.length + k) :
    (S ++ List.replicate k false)[p]? = some ((S[p]?).getD false) := by
  by_cases hin : p < S.length
  · rw [List.getElem?_append_left hin, List.getElem?_eq_getElem hin, Option.getD_some]
  · rw [List.getElem?_append_right (by omega), List.getElem?_replicate_of_lt (by omega),
      List.getElem?_eq_none (by omega), Option.getD_none]

/-- The eight bits that byte `i` of a packed sequence holds, the missing ones zero. -/
def octet (S : BitSeq) (i : Nat) : BitSeq :=
  (S.drop (8 * i)).take 8 ++ List.replicate (8 - ((S.drop (8 * i)).take 8).length) false

@[simp] theorem length_octet (S : BitSeq) (i : Nat) : (octet S i).length = 8 := by
  simp [octet]

theorem getElem?_octet (S : BitSeq) (i : Nat) {j : Nat} (h : j < 8) :
    (octet S i)[j]? = some ((S[8 * i + j]?).getD false) := by
  rw [octet, getElem?_append_zeros _ (by omega), List.getElem?_take_of_lt h, List.getElem?_drop]

theorem bitsOf_toNat_packedByte (S : BitSeq) (i : Nat) : bitsOf (packedByte S i).toNat 8 = octet S i := by
  have hlt : valOf (octet S i) < 2 ^ 8 := length_octet S i ▸ valOf_lt_two_pow_length (octet S i)
  have hval : (packedByte S i).toNat = valOf (octet S i) := by
    rw [← Nat.mod_eq_of_lt hlt, ← BitVec.toNat_ofNat]
    rfl
  have hbits := bitsOf_valOf (octet S i)
  rwa [length_octet, ← hval] at hbits

theorem getLsbD_packedByte (S : BitSeq) (i : Nat) {j : Nat} (h : j < 8) :
    (packedByte S i).getLsbD (7 - j) = (S[8 * i + j]?).getD false := by
  have hbit := getElem?_bitsOf (v := (packedByte S i).toNat) h
  rw [bitsOf_toNat_packedByte, getElem?_octet S i h] at hbit
  exact (Option.some.inj hbit).symm

/-- Filling the sequence with zeros first makes every octet a plain slice of it. -/
theorem octet_eq_slice_of_padded {S : BitSeq} {i k : Nat} (h : 8 * i + 8 ≤ S.length + k) :
    octet S i = ((S ++ List.replicate k false).drop (8 * i)).take 8 := by
  refine List.ext_getElem? fun j => ?_
  by_cases hj : j < 8
  · rw [getElem?_octet S i hj, List.getElem?_take_of_lt hj, List.getElem?_drop,
      getElem?_append_zeros S (by omega)]
  · rw [List.getElem?_eq_none (by simp; omega), List.getElem?_eq_none (by simp; omega)]

/-! ### All bytes of a sequence -/

@[simp] theorem length_packBytes (S : BitSeq) : (packBytes S).length = (S.length + 7) / 8 := by
  simp [packBytes]

theorem getElem?_packBytes_eq_some {S : BitSeq} {i : Nat} {v : Byte} (h : (packBytes S)[i]? = some v) :
    v = packedByte S i := by
  obtain ⟨hi, rfl⟩ := List.getElem?_eq_some_iff.mp h
  simp [packBytes]

theorem unpackBytes_packBytes (S : BitSeq) :
    unpackBytes (packBytes S) = (List.range ((S.length + 7) / 8)).flatMap (octet S) := by
  simp only [unpackBytes, packBytes, List.flatMap_map, bitsOf_toNat_packedByte]

/-- The first `n` slices of length 8, one after another, are the list's first `8 * n` elements. -/
theorem flatMap_slices_eq_take {α : Type} (L : List α) (n : Nat) :
    (List.range n).flatMap (fun i => (L.drop (8 * i)).take 8) = L.take (8 * n) := by
  induction n with
  | zero => rfl
  | succ n ih =>
    rw [List.range_succ, List.flatMap_append, ih, List.flatMap_singleton, Nat.mul_succ, List.take_add]

/-- Unpacking gives the sequence filled with zeros to the next multiple of 8. -/
theorem unpackBytes_packBytes_eq_padded (S : BitSeq) :
    unpackBytes (packBytes S) =
      S ++ List.replicate (8 * ((S.length + 7) / 8) - S.length) false := by
  rw [unpackBytes_packBytes]
  generalize hk : 8 * ((S.length + 7) / 8) - S.length = k
  calc (List.range ((S.length + 7) / 8)).flatMap (octet S)
    _ = (List.range ((S.length + 7) / 8)).flatMap
          (fun i => ((S ++ List.replicate k false).drop (8 * i)).take 8) :=
        List.flatMap_congr fun i hi => octet_eq_slice_of_padded (by have := List.mem_range.mp hi; omega)
    _ = (S ++ List.replicate k false).take (8 * ((S.length + 7) / 8)) := flatMap_slices_eq_take _ _
    _ = S ++ List.replicate k false := List.take_of_length_le (by simp; omega)

/-- Settles O7: each byte holds its octet, and the octets are the slices of the zero-filled sequence. -/
theorem packingContract : Obligations.PackingContract := by
  intro S
  refine ⟨length_packBytes S, fun i v hv => ?_, _, ?_, unpackBytes_packBytes_eq_padded S⟩
  · rw [getElem?_packBytes_eq_some hv, getLsbD_packedByte S (i / 8) (Nat.mod_lt i (by decide)), Nat.div_add_mod]
  · omega

end Sys2Proof
end

section
/-! PROOF. Reading back what the encoders write: numbers, the truncated-binary remainder and the codeword
(30_encoding.md rules R71 to R78). -/

namespace Sys2Proof

/-! ### Numbers as bits, split and read back -/

/-- The high `j` bits of a number stand before its low `k` bits. -/
theorem bitsOf_add (v j k : Nat) : bitsOf v (j + k) = bitsOf (v / 2 ^ k) j ++ bitsOf v k := by
  induction j with
  | zero => rw [Nat.zero_add, bitsOf_zero, List.nil_append]
  | succ j ih =>
    rw [Nat.succ_add, bitsOf_succ, ih, bitsOf_succ (v / 2 ^ k), Nat.testBit_div_two_pow, List.cons_append]

/-- `bitsOf` looks at the low `k` bits only. -/
theorem bitsOf_mod_two_pow (v k : Nat) : bitsOf (v % 2 ^ k) k = bitsOf v k := by
  refine List.ext_getElem? fun j => ?_
  by_cases hj : j < k
  · rw [getElem?_bitsOf hj, getElem?_bitsOf hj, Nat.testBit_mod_two_pow, decide_eq_true (by omega),
      Bool.true_and]
  · rw [List.getElem?_eq_none (by simp; omega), List.getElem?_eq_none (by simp; omega)]

theorem valOf_bitsOf (v k : Nat) : valOf (bitsOf v k) = v % 2 ^ k := by
  induction k generalizing v with
  | zero => rw [bitsOf_zero, Nat.pow_zero, Nat.mod_one]; rfl
  | succ k ih =>
    have hlow : (v.testBit 0).toNat = v % 2 := by rw [Nat.toNat_testBit, Nat.pow_zero, Nat.div_one]
    rw [bitsOf_add, bitsOf_succ v 0, bitsOf_zero, valOf_concat, ih, hlow, Nat.pow_one, Nat.pow_succ',
      Nat.mod_mul, Nat.add_comm]

/-- A number written at index `p` of a sequence, with anything before and after it, is read back. -/
theorem readBits_of_eq_append {S S1 S2 : BitSeq} {p v k : Nat} (hS : S = S1 ++ (bitsOf v k ++ S2))
    (hp : p = S1.length) (hv : v < 2 ^ k) : readBits S p k = some v := by
  subst hS hp
  unfold readBits
  split
  · next hk => subst hk; rw [Nat.lt_one_iff.mp hv]
  · rw [if_pos (by simp), List.drop_left, List.take_left' (length_bitsOf v k), valOf_bitsOf,
      Nat.mod_eq_of_lt hv]

/-! ### The parameters of a divisor (40_golomb_config.md rules R100, R101) -/

theorem threshold_add_self (m : Nat) : threshold m + m = 2 ^ clog2 m :=
  Nat.sub_add_cancel (Machine.clog2_eq_clog m ▸ Nat.le_pow_clog Nat.one_lt_two m)

/-- Above the divisor 1 the bit count is positive, and the threshold lies below `2^(b-1)`. -/
theorem exists_clog2_eq_succ {m : Nat} (hm : 2 ≤ m) : ∃ c, clog2 m = c + 1 ∧ threshold m < 2 ^ c := by
  have hpos : 0 < clog2 m := Machine.clog2_eq_clog m ▸ Nat.clog_pos Nat.one_lt_two hm
  obtain ⟨c, hc⟩ := Nat.exists_eq_succ_of_ne_zero hpos.ne'
  have hsum : threshold m + m = 2 ^ (c + 1) := by rw [threshold_add_self, hc]
  exact ⟨c, hc, Machine.threshold_lt_two_pow (by omega) (hsum ▸ Nat.le_add_left m (threshold m))⟩

/-! ### The remainder (30_encoding.md rule R73) -/

theorem remainderBits_short {r m : Nat} (hm : 2 ≤ m) (h : r < threshold m) :
    remainderBits r m = bitsOf r (clog2 m - 1) := by
  rw [remainderBits, if_neg (by omega), if_pos h]

theorem remainderBits_long {r m : Nat} (hm : 2 ≤ m) (h : threshold m ≤ r) :
    remainderBits r m = bitsOf (r + threshold m) (clog2 m) := by
  rw [remainderBits, if_neg (by omega), if_neg (by omega)]

theorem length_remainderBits (r m : Nat) :
    (remainderBits r m).length =
      if m = 1 then 0 else if r < threshold m then clog2 m - 1 else clog2 m := by
  unfold remainderBits
  split
  · rfl
  · split <;> exact length_bitsOf _ _

/-- The remainder phase reads a remainder back, with anything before and after it. In the long form the
first `b - 1` bits are `(r + t) / 2 ≥ t`, so that the last bit is read too. -/
theorem readRemainder_remainderBits {r m : Nat} (hr : r < m) (S1 S2 : BitSeq) :
    readRemainder (S1 ++ (remainderBits r m ++ S2)) S1.length m =
      some (r, (remainderBits r m).length) := by
  rcases (show 1 ≤ m by omega).eq_or_lt with rfl | hm
  · rw [Nat.lt_one_iff.mp hr]; rfl
  obtain ⟨c, hc, ht⟩ := exists_clog2_eq_succ hm
  have hsum : threshold m + m = 2 * 2 ^ c := by rw [threshold_add_self, hc, Nat.pow_succ']
  rcases Nat.lt_or_ge r (threshold m) with hshort | hlong
  · rw [remainderBits_short hm hshort, hc, Nat.add_sub_cancel]
    have hread : readBits (S1 ++ (bitsOf r c ++ S2)) S1.length c = some r :=
      readBits_of_eq_append rfl rfl (by omega)
    simp [readRemainder, hm.ne', hc, hread, hshort]
  · rw [remainderBits_long hm hlong, hc]
    have hsplit : S1 ++ (bitsOf (r + threshold m) (c + 1) ++ S2) =
        S1 ++ (bitsOf ((r + threshold m) / 2) c ++ (bitsOf ((r + threshold m) % 2) 1 ++ S2)) := by
      rw [bitsOf_add, ← bitsOf_mod_two_pow (r + threshold m) 1, Nat.pow_one, List.append_assoc]
    have hhigh := readBits_of_eq_append hsplit rfl (show (r + threshold m) / 2 < 2 ^ c by omega)
    have hlow := readBits_of_eq_append (p := S1.length + c) (hsplit.trans (List.append_assoc ..).symm)
      (by simp) (Nat.mod_lt (r + threshold m) Nat.two_pos)
    have hlast : threshold m ≤ (r + threshold m) / 2 := by omega
    have hvalue : 2 * ((r + threshold m) / 2) + (r + threshold m) % 2 - threshold m = r := by omega
    simp [readRemainder, hm.ne', hc, hhigh, hlow, hlast, hvalue]

/-! ### The codeword (30_encoding.md rule R71) -/

theorem codewordBits_append (n m : Nat) (S : BitSeq) :
    codewordBits n m ++ S =
      List.replicate (n / m) true ++ false :: (remainderBits (n % m) m ++ S) := by
  rw [codewordBits, List.append_assoc, List.cons_append]

theorem length_codewordBits (n m : Nat) : (codewordBits n m).length = codewordLen n m := by
  simp only [codewordBits, codewordLen, List.length_append, List.length_replicate, List.length_cons,
    length_remainderBits]
  omega

/-- The law of rule R76 needs no case of its own for the divisor 1, whose bit count is 0. -/
theorem codewordLen_eq (n m : Nat) :
    codewordLen n m =
      n / m + 1 + (if n % m < 2 ^ clog2 m - m then clog2 m - 1 else clog2 m) := by
  unfold codewordLen
  split
  · next hm => subst hm; rfl
  · rfl

theorem unaryRun_replicate_append (q : Nat) (S : BitSeq) :
    unaryRun (List.replicate q true ++ false :: S) = some q := by
  induction q with
  | zero => rfl
  | succ q ih => rw [List.replicate_succ, List.cons_append, unaryRun, ih]; rfl

/-- A codeword is read back under its own divisor, with anything before and after it. -/
theorem readSymbol_codewordBits {m : Nat} (hm : 1 ≤ m) (n : Nat) (S1 S2 : BitSeq) :
    readSymbol (S1 ++ (codewordBits n m ++ S2)) S1.length m = some (n, codewordLen n m) := by
  have hr : n % m < m := Nat.mod_lt n hm
  have hq : unaryRun (codewordBits n m ++ S2) = some (n / m) := by
    rw [codewordBits_append, unaryRun_replicate_append]
  have hrem : readRemainder (S1 ++ (codewordBits n m ++ S2)) (S1.length + (n / m + 1)) m =
      some (n % m, (remainderBits (n % m) m).length) := by
    have h := readRemainder_remainderBits hr (S1 ++ (List.replicate (n / m) true ++ [false])) S2
    rw [codewordBits_append]
    simpa using h
  have hn : n / m * m + n % m = n := Nat.div_add_mod' n m
  have hlen : n / m + 1 + (remainderBits (n % m) m).length = codewordLen n m := by
    rw [length_remainderBits, codewordLen]
  simp [readSymbol, hq, hrem, hr, hn, hlen]

theorem readSymbol_codewordBits_self {m : Nat} (hm : 1 ≤ m) (n : Nat) :
    readSymbol (codewordBits n m) 0 m = some (n, codewordLen n m) := by
  have h := readSymbol_codewordBits hm n [] []
  rwa [List.nil_append, List.append_nil, List.length_nil] at h

/-- Settles O4. -/
theorem codewordLengthLaw : Obligations.CodewordLengthLaw := by
  intro n m _
  rw [length_codewordBits, codewordLen_eq]
  exact ⟨rfl, Nat.le_add_right_of_le (Nat.le_add_left 1 (n / m))⟩

/-- Settles O5: the decoder reads from the longer codeword what it reads from its prefix. -/
theorem codewordsPrefixFree : Obligations.CodewordsPrefixFree := by
  rintro n n' m hm ⟨T, hT⟩
  have hread : readSymbol (codewordBits n m ++ T) 0 m = _ := readSymbol_codewordBits hm n [] T
  have hread' := readSymbol_codewordBits_self hm n'
  rw [← hT, hread] at hread'
  exact (Prod.mk.inj (Option.some.inj hread')).1

end Sys2Proof
end

section
/-! PROOF. The header (30_encoding.md rules R79, R80), and the decoder against the encoder. -/

namespace Sys2Proof

/-! ### The header -/

/-- The bits of a concatenated word are the bits of its parts, one after the other. -/
theorem bitsOf_toNat_append {a b : Nat} (x : BitVec a) (y : BitVec b) :
    bitsOf (x ++ y).toNat (a + b) = bitsOf x.toNat a ++ bitsOf y.toNat b := by
  have hval : (x ++ y).toNat = x.toNat * 2 ^ b + y.toNat := by
    rw [BitVec.toNat_append, ← Nat.shiftLeft_add_eq_or_of_lt y.isLt, Nat.shiftLeft_eq]
  have hhigh : (x ++ y).toNat / 2 ^ b = x.toNat := by
    rw [hval, Nat.mul_comm, Nat.mul_add_div (Nat.two_pow_pos b), Nat.div_eq_of_lt y.isLt, Nat.add_zero]
  have hlow : (x ++ y).toNat % 2 ^ b = y.toNat := by
    rw [hval, Nat.mul_add_mod_self_right, Nat.mod_eq_of_lt y.isLt]
  rw [bitsOf_add, hhigh, ← bitsOf_mod_two_pow _ b, hlow]

theorem bitsOf_headerWord (w h m : BitVec 16) (p : BitVec 4) (r : BitVec 12) :
    bitsOf (headerWord w h m p r).toNat 64 =
      Header.toBits { w := w.toNat, h := h.toNat, m := m.toNat, p := p.toNat, r := r.toNat } := by
  simp only [headerWord, Header.toBits, ← bitsOf_toNat_append]

@[simp] theorem Header.length_toBits (hd : Header) : hd.toBits.length = 64 := by
  simp [Header.toBits]

/-- A header at bit 0 is read back field by field, whatever follows. -/
theorem readHeader_toBits {hd : Header} (hfit : Machine.headerFits hd) (S : BitSeq) :
    readHeader (hd.toBits ++ S) = some hd := by
  obtain ⟨hw, hh, hm, hp, hr⟩ := hfit
  have readW : readBits (hd.toBits ++ S) 0 16 = some hd.w :=
    readBits_of_eq_append (S1 := []) (by simp [Header.toBits]; rfl) rfl hw
  have readH : readBits (hd.toBits ++ S) 16 16 = some hd.h :=
    readBits_of_eq_append (S1 := bitsOf hd.w 16) (by simp [Header.toBits]; rfl) (by simp) hh
  have readM : readBits (hd.toBits ++ S) 32 16 = some hd.m :=
    readBits_of_eq_append (S1 := bitsOf hd.w 16 ++ bitsOf hd.h 16)
      (by simp [Header.toBits]; rfl) (by simp) hm
  have readP : readBits (hd.toBits ++ S) 48 4 = some hd.p :=
    readBits_of_eq_append (S1 := bitsOf hd.w 16 ++ bitsOf hd.h 16 ++ bitsOf hd.m 16)
      (by simp [Header.toBits]; rfl) (by simp) hp
  have readR : readBits (hd.toBits ++ S) 52 12 = some hd.r :=
    readBits_of_eq_append (S1 := bitsOf hd.w 16 ++ bitsOf hd.h 16 ++ bitsOf hd.m 16 ++ bitsOf hd.p 4)
      (by simp [Header.toBits]; rfl) (by simp) hr
  simp [readHeader, readW, readH, readM, readP, readR]

/-- Settles O6. -/
theorem headerBitsAndFields : Obligations.HeaderBitsAndFields :=
  ⟨bitsOf_headerWord, fun hd S hfit => ⟨hd.length_toBits, readHeader_toBits hfit S⟩⟩

theorem decodeHeader_headerWord (w h m : BitVec 16) (p : BitVec 4) (r : BitVec 12) :
    decodeHeader (headerWord w h m p r) = .frameHeader w h m p r := by
  simp only [decodeHeader, headerWord, Instr.frameHeader.injEq]
  refine ⟨?width, ?height, ?divisor, ?id, BitVec.extractLsb'_append_eq_right⟩
  case width =>
    iterate 4 rw [BitVec.extractLsb'_append_eq_of_le (by decide)]
    exact BitVec.extractLsb'_eq_self
  case height =>
    iterate 3 rw [BitVec.extractLsb'_append_eq_of_le (by decide)]
    exact BitVec.extractLsb'_append_eq_right
  case divisor =>
    iterate 2 rw [BitVec.extractLsb'_append_eq_of_le (by decide)]
    exact BitVec.extractLsb'_append_eq_right
  case id =>
    rw [BitVec.extractLsb'_append_eq_of_le (by decide)]
    exact BitVec.extractLsb'_append_eq_right

theorem encode_decodeHeader (w : BitVec 64) : encode (decodeHeader w) = .header w := by
  refine congrArg PortWord.header ?_
  calc headerWord (w.extractLsb' 48 16) (w.extractLsb' 32 16) (w.extractLsb' 16 16)
        (w.extractLsb' 12 4) (w.extractLsb' 0 12)
    _ = w.extractLsb' 0 64 := by
        simp only [headerWord]
        iterate 4 rw [BitVec.extractLsb'_append_extractLsb'_eq_extractLsb' (by decide)]
    _ = w := BitVec.extractLsb'_eq_self

/-! ### The decoder against the encoder -/

theorem decode_codewordBits {m : Nat} (hm : 1 ≤ m) (n : Nat) :
    decode m (.codeword (codewordBits n m)) = .ok (.codeword m n) := by
  rw [decode, readSymbol_codewordBits_self hm]

/-- Settles O1. Selector codes are tabled, header fields are slices of the word, and a codeword is read
back under its divisor. -/
theorem decodeOfEncode : Obligations.DecodeOfEncode := by
  intro i m hm
  cases i with
  | gConstruct | gSetm | gEncode | gEncodeto | gDecode | gBitstostr | iConstruct | iEncode | iDecode
  | reservedCmd0110 | reservedCmd0111 | reservedCmd1011 | reservedCmd1100 | reservedCmd1101
  | reservedCmd1110 | reservedCmd1111 => rfl
  | predPrev place | predAbove place | predAverage place | predPaeth place | predJpegLs place
  | predGradient place => cases place <;> rfl
  | predReserved6 | predReserved7 | predReserved8 | predReserved9 | predReserved10 | predReserved11
  | predReserved12 | predReserved13 | predReserved14 | predReserved15 => rfl
  | modeSignMagnitude place | modeInterleaving place => rfl
  | errOk u | errInvalidParameter u | errInvalidShape u | errMalformed u => rfl
  | frameHeader w h m' p r => exact congrArg Except.ok (decodeHeader_headerWord w h m' p r)
  | codeword m' n =>
    obtain ⟨rfl, h1⟩ := hm m' n rfl
    exact decode_codewordBits h1 n

theorem encode_decodeCommand : ∀ w : BitVec 4, encode (decodeCommand w) = .cmd w := by decide

theorem encode_decodePredOperand : ∀ w : BitVec 4, encode (decodePredOperand w) = .pred .operand w := by
  decide

theorem encode_decodeMode (place : ModePlace) :
    ∀ w : BitVec 1, encode (decodeMode place w) = .mode place w := by
  cases place <;> decide

theorem encode_decodeErr (u : UnitId) : ∀ w : BitVec 2, encode (decodeErr u w) = .err u w := by
  cases u <;> decide

/-- An id that selects a predictor is that predictor's code (30_encoding.md rule R81). -/
theorem eq_code_of_ofId :
    ∀ {w : BitVec 4} {pred : Predictor}, Predictor.ofId w.toNat = some pred → w = pred.code := by
  decide

theorem encode_of_decodePredSelect {w : BitVec 4} {i : Instr} (h : decodePredSelect w = .ok i) :
    encode i = .pred .select w := by
  unfold decodePredSelect at h
  split at h <;> cases h
  all_goals next hid => rw [eq_code_of_ofId hid]; rfl

/-- Settles O2: each fixed-width format has its own decoder, and the encoder undoes it. -/
theorem encodeOfDecodeFixedWidth : Obligations.EncodeOfDecodeFixedWidth := by
  intro p m i hfixed h
  cases p with
  | cmd w => cases h; exact encode_decodeCommand w
  | pred place w =>
    cases place with
    | operand => cases h; exact encode_decodePredOperand w
    | select => exact encode_of_decodePredSelect h
  | mode place w => cases h; exact encode_decodeMode place w
  | err u w => cases h; exact encode_decodeErr u w
  | header w => cases h; exact encode_decodeHeader w
  | codeword S => exact absurd rfl (hfixed S)

/-- Settles O3: the short words are rows of the decoder's tables; the header and the codeword are read by
the round trip. -/
theorem knownWordsDecode : Obligations.KnownWordsDecode :=
  ⟨rfl, rfl, rfl, rfl, rfl, rfl, rfl, congrArg Except.ok (decodeHeader_headerWord 640 480 7 4 0),
    decode_codewordBits (m := 5) (by decide) 6, rfl⟩

end Sys2Proof
end

section
/-! PROOF. Words executed on their own: a codeword at the decoder of the G unit, the reserved predictor
ids at I.OP_PRED and the reserved command codes (30_encoding.md rules R75, R82, R87). -/

namespace Sys2Proof.Machine

/-! ### A codeword at the decoder -/

theorem decodeSym_codewordBits_self {m : Nat} (hm : 1 ≤ m) (n : Nat) (mode : SignMode) :
    decodeSym (codewordBits n m) 0 m mode = some (signUnmap mode n, codewordLen n m) := by
  rw [decodeSym, readSymbol_codewordBits_self hm]

theorem gDecodeAt_of_decodeSym {S : BitSeq} {pos : Nat} {s : State} {v : Int} {k : Nat}
    (h : decodeSym S pos s.g.m.toNat s.g.mode = some (v, k)) :
    gDecodeAt S pos s = s.setG { s.g with resValue := v, resConsumed := k, err := .ok } := by
  rw [gDecodeAt, h]

/-- Decoding one symbol writes G.RES_VALUE, G.RES_CONSUMED and G.ERR only. -/
theorem gDecodeAt_frame (S : BitSeq) (pos : Nat) (s : State) :
    gConfigKept s (gDecodeAt S pos s) ∧ gOperandsKept s (gDecodeAt S pos s) ∧
      gTextResultsKept s (gDecodeAt S pos s) ∧ keptOutsideG s (gDecodeAt S pos s) := by
  rcases gDecodeAt_cases S pos s with ⟨v, k, -, ht⟩ | ⟨-, ht⟩
  · simp [ht, gConfigKept, gOperandsKept, gTextResultsKept, keptOutsideG, bitsKept, rasterKept, ownKept]
  · obtain ⟨v, k, hfail⟩ := failGDecode_spec s
    simp [ht, hfail, gConfigKept, gOperandsKept, gTextResultsKept, keptOutsideG, bitsKept, rasterKept,
      ownKept]

theorem gDecodeAt_err (S : BitSeq) (pos : Nat) (s : State) :
    (gDecodeAt S pos s).g.err = .ok ∨ (gDecodeAt S pos s).g.err = .malformed := by
  rcases gDecodeAt_cases S pos s with ⟨v, k, -, ht⟩ | ⟨-, ht⟩
  · exact .inl (ht ▸ rfl)
  · exact .inr (ht ▸ rfl)

theorem exec_codeword_of_valid {s : State} (hv : s.g.valid = true) (m n : Nat) :
    exec (.codeword m n) s = .next (gDecodeAt (codewordBits n m) 0 s) :=
  requireG_of_valid hv

/-- Settles O47. -/
theorem codewordWord : Obligations.CodewordWord := by
  intro s m n hv
  have hframe := gDecodeAt_frame (codewordBits n m) 0 s
  refine ⟨fun h1 hm => ⟨_, exec_codeword_of_valid hv m n, ?own⟩, fun _ =>
    ⟨_, exec_codeword_of_valid hv m n, gDecodeAt_err _ _ _, hframe⟩⟩
  case own =>
    subst hm
    have ht := gDecodeAt_of_decodeSym (decodeSym_codewordBits_self h1 n s.g.mode)
    exact ⟨by rw [ht]; rfl, by rw [ht]; rfl, by rw [ht]; rfl, hframe⟩

/-! ### Reserved predictor ids -/

theorem execIConstruct_writeOpPred_of_reserved {code : BitVec 4} (h : Predictor.ofId code.toNat = none)
    (s : State) : execIConstruct (writeOpPred code s) = .refused (.reservedPredictor code) := by
  rw [execIConstruct, writeOpPred, State.setI_i, h]

/-- Settles O43: each word writes its code to I.OP_PRED, and none of these codes selects a predictor. -/
theorem reservedPredictorWords : Obligations.ReservedPredictorWords := by
  intro s e he
  obtain ⟨hx, hid⟩ : exec e.1 s = .next (writeOpPred e.2 s) ∧ Predictor.ofId e.2.toNat = none := by
    fin_cases he <;> exact ⟨rfl, rfl⟩
  refine ⟨_, hx, rfl, execIConstruct_writeOpPred_of_reserved hid s, ?frame⟩
  case frame => simp [writeOpPred, iConfigKept, bitsKept, rasterKept, ownKept]

/-! ### Reserved command codes -/

/-- Settles O48: each code decodes to its own instruction, and each of these is refused. -/
theorem reservedCommandsRefused : Obligations.ReservedCommandsRefused := by
  intro s e he
  obtain ⟨hd, hx⟩ : decodeCommand e.2 = e.1 ∧ ∀ t, exec e.1 t = .refused (.reservedCommand e.2) := by
    fin_cases he <;> exact ⟨rfl, fun _ => rfl⟩
  refine ⟨hx s, fun rest hq => ?_⟩
  rw [step_of_word hq (congrArg Except.ok hd), hx]

end Sys2Proof.Machine
end

section
/-! PROOF. The divisor of the G unit: its derived values, the two operations that write it, and the results
that depend on it (40_golomb_config.md rules R100 to R105). -/

namespace Sys2Proof.Machine

/-! ### The derived values of the divisor -/

theorem le_two_pow_clog2 (m : Nat) : m ≤ 2 ^ clog2 m :=
  threshold_add_self m ▸ Nat.le_add_left m (threshold m)

theorem threshold_eq_zero_iff {m : Nat} : threshold m = 0 ↔ ∃ k, m = 2 ^ k := by
  have hsum := threshold_add_self m
  constructor
  · intro h
    exact ⟨clog2 m, by omega⟩
  · rintro ⟨k, hk⟩
    have hpow : 2 ^ clog2 m ≤ 2 ^ k := Nat.pow_le_pow_right Nat.two_pos (clog2_le_of_le_two_pow hk.le)
    omega

/-- Settles O8. -/
theorem derivedParameters : Obligations.DerivedParameters := by
  intro m h1
  refine ⟨le_two_pow_clog2 m, fun k => clog2_le_of_le_two_pow, threshold_add_self m, fun hb => ?below,
    threshold_eq_zero_iff⟩
  case below =>
    refine threshold_lt_two_pow h1 ?_
    rw [Nat.sub_add_cancel hb]
    exact le_two_pow_clog2 m

/-- A divisor the unit accepts is written without truncation (10_state.md rules R11 to R13). -/
theorem GUnit.toNat_writeDivisor {m : Nat} (h1 : 1 ≤ m) (hmax : m ≤ Config.mMax) (g : GUnit) :
    (g.writeDivisor m).m.toNat = m ∧ (g.writeDivisor m).b.toNat = clog2 m ∧
      (g.writeDivisor m).t.toNat + m = 2 ^ clog2 m := by
  have hM : (g.writeDivisor m).m.toNat = m :=
    (BitVec.toNat_ofNat m 16).trans (Nat.mod_eq_of_lt (Nat.lt_succ_of_le hmax))
  obtain ⟨-, hB, hT, -⟩ := g.inv_writeDivisor h1 hmax
  rw [hM] at hB hT
  exact ⟨hM, hB, hT ▸ threshold_add_self m⟩

/-! ### G.CONSTRUCT and G.SETM -/

theorem execGConstruct_of_zero {s : State} (h0 : s.g.opM = 0) :
    execGConstruct s = .next (raiseG .invalidParameter s) := if_pos h0

theorem execGConstruct_of_too_large {s : State} (h : Config.mMax < s.g.opM) :
    execGConstruct s = .refused (.divisorTooLarge s.g.opM) := by
  rw [execGConstruct, if_neg (Nat.ne_zero_of_lt h), if_pos h]

theorem execGConstruct_of_legal {s : State} (h1 : 1 ≤ s.g.opM) (hmax : s.g.opM ≤ Config.mMax) :
    execGConstruct s =
      .next (s.setG
        { s.g.writeDivisor s.g.opM with mode := s.g.opMode, valid := true, err := .ok }) := by
  rw [execGConstruct, if_neg (Nat.ne_zero_of_lt h1), if_neg (Nat.not_lt.2 hmax)]

theorem execGSetm_of_not_valid {s : State} (hv : s.g.valid = false) :
    execGSetm s = .refused (.notConstructed .gUnit) := if_pos hv

section Valid
variable {s : State} (hv : s.g.valid = true)
include hv

theorem execGSetm_of_zero (h0 : s.g.opM = 0) :
    execGSetm s = .next (raiseG .invalidParameter s) := by
  rw [execGSetm, if_neg (ne_false_of_eq_true hv), if_pos h0]

theorem execGSetm_of_too_large (h : Config.mMax < s.g.opM) :
    execGSetm s = .refused (.divisorTooLarge s.g.opM) := by
  rw [execGSetm, if_neg (ne_false_of_eq_true hv), if_neg (Nat.ne_zero_of_lt h), if_pos h]

theorem execGSetm_of_legal (h1 : 1 ≤ s.g.opM) (hmax : s.g.opM ≤ Config.mMax) :
    execGSetm s = .next (s.setG { s.g.writeDivisor s.g.opM with err := .ok }) := by
  rw [execGSetm, if_neg (ne_false_of_eq_true hv), if_neg (Nat.ne_zero_of_lt h1),
    if_neg (Nat.not_lt.2 hmax)]

end Valid

theorem keptOutsideG_setG (g : GUnit) (s : State) : keptOutsideG s (s.setG g) := by
  simp [keptOutsideG, bitsKept, rasterKept, ownKept]

theorem onlyGErrChanged_raiseG (k : ErrCode) (s : State) : onlyGErrChanged s (raiseG k s) := by
  simp [raiseG, onlyGErrChanged, gConfigKept, gOperandsKept, gDecodeResultsKept, gTextResultsKept,
    keptOutsideG, bitsKept, rasterKept, ownKept]

/-- Settles O14. -/
theorem gConstructEffect : Obligations.GConstructEffect := by
  refine ⟨rfl, fun s => ⟨fun h0 => ?error, execGConstruct_of_too_large, fun h1 hmax => ?effect⟩⟩
  case error => exact ⟨_, execGConstruct_of_zero h0, rfl, onlyGErrChanged_raiseG _ s⟩
  case effect =>
    obtain ⟨hM, hB, hT⟩ := s.g.toNat_writeDivisor h1 hmax
    exact ⟨_, execGConstruct_of_legal h1 hmax, hM, hB, hT, rfl, rfl, rfl, rfl, ⟨rfl, rfl, rfl, rfl⟩,
      ⟨rfl, rfl⟩, ⟨rfl, rfl⟩, keptOutsideG_setG _ s⟩

/-- Settles O15. -/
theorem gSetmEffect : Obligations.GSetmEffect := by
  refine ⟨rfl, fun s => ⟨execGSetm_of_not_valid, fun hv h0 => ?error, execGSetm_of_too_large,
    fun hv h1 hmax => ?effect⟩⟩
  case error => exact ⟨_, execGSetm_of_zero hv h0, rfl, onlyGErrChanged_raiseG _ s⟩
  case effect =>
    obtain ⟨hM, hB, hT⟩ := s.g.toNat_writeDivisor h1 hmax
    exact ⟨_, execGSetm_of_legal hv h1 hmax, hM, hB, hT, rfl, rfl, hv, rfl, ⟨rfl, rfl, rfl, rfl⟩,
      ⟨rfl, rfl⟩, ⟨rfl, rfl⟩, keptOutsideG_setG _ s⟩

/-! ### What results depend on -/

theorem gDecodeAt_of_decodeSym_eq_none {S : BitSeq} {pos : Nat} {s : State}
    (h : decodeSym S pos s.g.m.toNat s.g.mode = none) : gDecodeAt S pos s = failGDecode s := by
  rw [gDecodeAt, h]

/-- The outcome, and the results where there are any, are those of `decodeSym`. -/
theorem gDecodeAt_results_eq {S : BitSeq} {pos : Nat} {s s' : State} (hm : s.g.m = s'.g.m)
    (hmode : s.g.mode = s'.g.mode) :
    (gDecodeAt S pos s).g.err = (gDecodeAt S pos s').g.err ∧
      ((gDecodeAt S pos s).g.err = .ok →
        (gDecodeAt S pos s).g.resValue = (gDecodeAt S pos s').g.resValue ∧
          (gDecodeAt S pos s).g.resConsumed = (gDecodeAt S pos s').g.resConsumed) := by
  rcases gDecodeAt_cases S pos s with ⟨v, k, h, ht⟩ | ⟨h, ht⟩
  · rw [hm, hmode] at h
    rw [ht, gDecodeAt_of_decodeSym h]
    exact ⟨rfl, fun _ => ⟨rfl, rfl⟩⟩
  · rw [hm, hmode] at h
    rw [ht, gDecodeAt_of_decodeSym_eq_none h]
    exact ⟨rfl, nofun⟩

/-- Settles O21: each of the three operations completes, and its results read the divisor, the mode, the
operands and the bit sequence only. -/
theorem parameterStability : Obligations.ParameterStability := by
  intro s s' hv hv' hm hmode hvalue hpos hbit
  have hsym : encodeSym s.g.opValue s.g.m.toNat s.g.mode =
      encodeSym s'.g.opValue s'.g.m.toNat s'.g.mode := by rw [hvalue, hm, hmode]
  refine ⟨⟨_, _, requireG_of_valid hv, requireG_of_valid hv', hsym⟩,
    ⟨_, _, requireG_of_valid hv, requireG_of_valid hv', ?encodeto⟩,
    ⟨_, _, requireG_of_valid hv, requireG_of_valid hv', ?decode⟩⟩
  case encodeto => exact congrArg₂ (· ++ ·) hbit hsym
  case decode =>
    rw [hbit, hpos]
    exact gDecodeAt_results_eq hm hmode

end Sys2Proof.Machine
end

section
/-! PROOF. The sign mappings, their inverses and their order, and the mode codes that select them
(41_sign_mapping.md). -/

namespace Sys2Proof.Machine

/-! ### The mappings by sign, and the inverses by parity (41_sign_mapping.md rules R116 to R118) -/

theorem signMag_natCast (a : Nat) : signMag a = 2 * a := by simp [signMag]

theorem signMag_negSucc (a : Nat) : signMag (Int.negSucc a) = 2 * (a + 1) + 1 := by
  simp [signMag, Int.negSucc_lt_zero]

theorem signMagInv_two_mul (k : Nat) : signMagInv (2 * k) = k := by simp [signMagInv]

theorem signMagInv_two_mul_add_one (k : Nat) : signMagInv (2 * k + 1) = -(k : Int) := by
  rw [signMagInv, if_pos (by omega), show (2 * k + 1) / 2 = k by omega]

theorem interleave_natCast (a : Nat) : interleave a = 2 * a := by simp [interleave]

theorem interleave_negSucc (a : Nat) : interleave (Int.negSucc a) = 2 * a + 1 := by
  rw [interleave, if_neg (Int.negSucc_lt_zero a).not_ge, Int.natAbs_negSucc]
  omega

theorem interleaveInv_two_mul (k : Nat) : interleaveInv (2 * k) = k := by simp [interleaveInv]

theorem interleaveInv_two_mul_add_one (k : Nat) : interleaveInv (2 * k + 1) = Int.negSucc k := by
  rw [interleaveInv, if_neg (by omega), show (2 * k + 1 + 1) / 2 = k + 1 by omega]
  rfl

/-! ### Undoing the mappings -/

theorem signMagInv_signMag (v : Int) : signMagInv (signMag v) = v := by
  cases v with
  | ofNat a => exact (congrArg signMagInv (signMag_natCast a)).trans (signMagInv_two_mul a)
  | negSucc a => rw [signMag_negSucc, signMagInv_two_mul_add_one]; rfl

theorem interleaveInv_interleave (v : Int) : interleaveInv (interleave v) = v := by
  cases v with
  | ofNat a => exact (congrArg interleaveInv (interleave_natCast a)).trans (interleaveInv_two_mul a)
  | negSucc a => rw [interleave_negSucc, interleaveInv_two_mul_add_one]

theorem signUnmap_signMap (mode : SignMode) (v : Int) : signUnmap mode (signMap mode v) = v := by
  cases mode with
  | signMagnitude => exact signMagInv_signMag v
  | interleaving => exact interleaveInv_interleave v

theorem interleave_interleaveInv (n : Nat) : interleave (interleaveInv n) = n := by
  obtain ⟨k, rfl | rfl⟩ := n.even_or_odd'
  · rw [interleaveInv_two_mul, interleave_natCast]
  · rw [interleaveInv_two_mul_add_one, interleave_negSucc]

/-- The odd numbers above 1 are the images of the negative values. -/
theorem signMag_signMagInv {n : Nat} (hn : n ≠ 1) : signMag (signMagInv n) = n := by
  obtain ⟨k, rfl | rfl⟩ := n.even_or_odd'
  · rw [signMagInv_two_mul, signMag_natCast]
  · obtain ⟨a, rfl⟩ : ∃ a, k = a + 1 := Nat.exists_eq_succ_of_ne_zero fun hk => hn (by rw [hk])
    rw [signMagInv_two_mul_add_one]
    exact signMag_negSucc a

/-- 1 would be the image of a negative zero: its inverse is 0, whose image is 0. -/
theorem signMag_ne_one (v : Int) : signMag v ≠ 1 := by
  intro h
  have hv : v = 0 := by rw [← signMagInv_signMag v, h]; rfl
  rw [hv] at h
  exact absurd h (by decide)

/-- Settles O11. -/
theorem signMappingsInverse : Obligations.SignMappingsInverse :=
  ⟨fun v => ⟨signMagInv_signMag v, interleaveInv_interleave v⟩, interleave_interleaveInv,
    fun _ => signMag_signMagInv, rfl, signMag_ne_one⟩

/-! ### Order (41_sign_mapping.md rule R120) -/

/-- The two values of one magnitude are mapped into a pair of neighbouring numbers. -/
theorem signMag_bounds (v : Int) : 2 * v.natAbs ≤ signMag v ∧ signMag v ≤ 2 * v.natAbs + 1 := by
  unfold signMag
  split <;> omega

/-- Under INTERLEAVING the pair is one lower. -/
theorem interleave_bounds (v : Int) :
    2 * v.natAbs ≤ interleave v + 1 ∧ interleave v ≤ 2 * v.natAbs := by
  unfold interleave
  split <;> omega

/-- Settles O12: the pairs of different magnitudes do not overlap. -/
theorem signMappingsOrdered : Obligations.SignMappingsOrdered := by
  intro mode v1 v2 h
  cases mode with
  | signMagnitude =>
    calc signMag v1 ≤ 2 * v1.natAbs + 1 := (signMag_bounds v1).2
      _ < 2 * v2.natAbs := by omega
      _ ≤ signMag v2 := (signMag_bounds v2).1
  | interleaving =>
    refine Nat.lt_of_add_lt_add_right (n := 1) ?_
    calc interleave v1 + 1 ≤ 2 * v1.natAbs + 1 := Nat.succ_le_succ (interleave_bounds v1).2
      _ < 2 * v2.natAbs := by omega
      _ ≤ interleave v2 + 1 := (interleave_bounds v2).1

/-! ### Mode codes (41_sign_mapping.md rule R115) -/

theorem setProbe_frame (p : Probe) (s : State) :
    (s.setProbe p).g = s.g ∧ (s.setProbe p).i = s.i ∧ (s.setProbe p).fr = s.fr ∧
      bitsKept s (s.setProbe p) ∧ rasterKept s (s.setProbe p) ∧ (s.setProbe p).inbox = s.inbox := by
  simp [bitsKept, rasterKept]

theorem selectMode_inverse_of_signMap {mode : SignMode} {s : State} {v : Int}
    (h : s.probe.n = signMap mode v) :
    selectMode mode .inverse s = .next (s.setProbe { s.probe with v := v }) := by
  rw [selectMode, h, signUnmap_signMap]

/-- Settles O44: a word runs `selectMode` with its mode at its place. -/
theorem modeWords : Obligations.ModeWords := by
  refine fun s => ⟨fun e he => ?operand, fun e he => ?forward, fun v => ⟨fun h => ?sm, fun h => ?il⟩⟩
  case operand =>
    have hx : exec e.1 s = .next (writeOpMode e.2 s) := by fin_cases he <;> rfl
    exact ⟨_, hx, rfl, rfl, rfl, rfl, ⟨rfl, rfl, rfl, rfl, rfl, rfl⟩, ⟨rfl, rfl⟩, ⟨rfl, rfl⟩, rfl,
      keptOutsideG_setG _ s⟩
  case forward =>
    have hx : exec e.1 s = .next (s.setProbe { s.probe with n := e.2 }) := by fin_cases he <;> rfl
    exact ⟨_, hx, rfl, rfl, rfl, setProbe_frame _ s⟩
  case sm =>
    exact ⟨_, selectMode_inverse_of_signMap (mode := .signMagnitude) h, rfl, rfl, rfl,
      setProbe_frame _ s⟩
  case il =>
    exact ⟨_, selectMode_inverse_of_signMap (mode := .interleaving) h, rfl, rfl, rfl,
      setProbe_frame _ s⟩

end Sys2Proof.Machine
end

section
/-! PROOF. The encoder of the Golomb unit and the rendering of bits as characters
(42_golomb_encode.md rules R126 to R128, R131). -/

namespace Sys2Proof.Machine

/-! ### The operations on a constructed unit -/

section Valid
variable {s : State} (hv : s.g.valid = true)
include hv

theorem exec_gEncode_of_valid :
    exec .gEncode s =
      .next (s.setG { s.g with cw := encodeSym s.g.opValue s.g.m.toNat s.g.mode, err := .ok }) :=
  requireG_of_valid hv

theorem exec_gEncodeto_of_valid :
    exec .gEncodeto s =
      .next ((s.setBit (s.bit ++ encodeSym s.g.opValue s.g.m.toNat s.g.mode)).deliver .gUnit .ok) :=
  requireG_of_valid hv

theorem exec_gBitstostr_of_valid :
    exec .gBitstostr s = .next (s.setG { s.g with str := bitsToString s.bit, err := .ok }) :=
  requireG_of_valid hv

end Valid

/-! ### G.ENCODE and G.ENCODETO -/

/-- Settles O16. -/
theorem gEncodeEffect : Obligations.GEncodeEffect := by
  refine ⟨rfl, fun s => ⟨requireG_of_not_valid, fun hv => ?effect⟩⟩
  case effect =>
    exact ⟨_, exec_gEncode_of_valid hv, rfl, rfl, rfl, ⟨rfl, rfl, rfl, rfl, rfl, rfl⟩,
      ⟨rfl, rfl, rfl, rfl⟩, ⟨rfl, rfl⟩, keptOutsideG_setG _ s⟩

/-- Settles O17: the new sink is an append, whose left part is the old sink and whose right part, read from
the old end on, is the codeword. -/
theorem gEncodetoEffect : Obligations.GEncodetoEffect := by
  refine ⟨rfl, fun s => ⟨requireG_of_not_valid, fun hv => ?effect⟩⟩
  case effect =>
    refine ⟨_, exec_gEncodeto_of_valid hv, List.length_append, fun j hj => ?earlier, fun j => ?codeword,
      rfl, ⟨rfl, rfl, rfl, rfl, rfl, rfl⟩, ⟨rfl, rfl, rfl, rfl⟩, ⟨rfl, rfl⟩, ⟨rfl, rfl⟩, rfl, rfl,
      fun _ => rfl, ⟨rfl, rfl⟩⟩
    case earlier => exact List.getElem?_append_left hj
    case codeword =>
      rw [State.deliver_gUnit_bit, State.setBit_bit, List.getElem?_append_right (Nat.le_add_right _ j),
        Nat.add_sub_cancel_left]

/-- Settles O22. -/
theorem encodetoAppendsEncodeResult : Obligations.EncodetoAppendsEncodeResult := fun _ hv =>
  ⟨_, _, exec_gEncodeto_of_valid hv, exec_gEncode_of_valid hv, rfl⟩

/-! ### G.BITSTOSTR -/

theorem length_bitsToString (S : BitSeq) : (bitsToString S).length = S.length := List.length_map _

theorem getElem?_bitsToString {S : BitSeq} {j : Nat} {b : Bool} (h : S[j]? = some b) :
    (bitsToString S)[j]? = some (if b then '1' else '0') := by
  rw [bitsToString, List.getElem?_map, h, Option.map_some]

/-- The two bits have different characters, so the rendering loses nothing. -/
theorem bitsToString_injective : Function.Injective bitsToString :=
  List.map_injective_iff.2 (by decide)

/-- Settles O20. -/
theorem gBitstostrEffect : Obligations.GBitstostrEffect := by
  refine ⟨rfl, fun s => ⟨requireG_of_not_valid, fun hv => ?effect⟩, fun _ _ h => bitsToString_injective h⟩
  case effect =>
    exact ⟨_, exec_gBitstostr_of_valid hv, length_bitsToString s.bit, fun _ _ => getElem?_bitsToString,
      rfl, rfl, ⟨rfl, rfl, rfl, rfl, rfl, rfl⟩, ⟨rfl, rfl, rfl, rfl⟩, ⟨rfl, rfl⟩, keptOutsideG_setG _ s⟩

end Sys2Proof.Machine
end

section
/-! PROOF. The decoder of the Golomb unit: what a read that succeeds says of the source, the round trip of
symbols and streams, and G.DECODE (43_golomb_decode.md). -/

namespace Sys2Proof

/-! ### What a successful read says of the source (43_golomb_decode.md rules R141 to R144) -/

/-- Two sequences read one after the other stand there as one. -/
theorem append_prefix_drop {A B S : BitSeq} {p : Nat} (hA : A <+: S.drop p)
    (hB : B <+: S.drop (p + A.length)) : A ++ B <+: S.drop p := by
  obtain ⟨T, hT⟩ := hA
  rw [← List.drop_drop, ← hT, List.drop_left] at hB
  rw [← hT]
  exact (List.prefix_append_right_inj A).2 hB

theorem readBits_eq_some {S : BitSeq} {p k v : Nat} (h : readBits S p k = some v) :
    v < 2 ^ k ∧ bitsOf v k <+: S.drop p := by
  unfold readBits at h
  split at h
  · next hk =>
    subst hk
    cases h
    exact ⟨Nat.one_pos, List.nil_prefix⟩
  · split at h
    · next hlen =>
      cases h
      have hk : ((S.drop p).take k).length = k := by simp; omega
      have hlt := valOf_lt_two_pow_length ((S.drop p).take k)
      have hbits := bitsOf_valOf ((S.drop p).take k)
      rw [hk] at hlt hbits
      exact ⟨hlt, hbits.symm ▸ List.take_prefix k (S.drop p)⟩
    · cases h

theorem unaryRun_eq_some {S : BitSeq} {q : Nat} (h : unaryRun S = some q) :
    List.replicate q true ++ [false] <+: S := by
  induction S generalizing q with
  | nil => cases h
  | cons b S ih =>
    cases b with
    | false =>
      cases h
      exact List.prefix_append [false] S
    | true =>
      obtain ⟨q', hq', rfl⟩ := Option.map_eq_some_iff.1 h
      exact (List.prefix_append_right_inj [true]).2 (ih hq')

/-- The two ways in which the remainder phase succeeds above the divisor 1. -/
theorem readRemainder_cases {S : BitSeq} {p m r k : Nat} (hm : 2 ≤ m)
    (h : readRemainder S p m = some (r, k)) :
    (r < threshold m ∧ k = clog2 m - 1 ∧ readBits S p (clog2 m - 1) = some r) ∨
    ∃ r' e, threshold m ≤ r' ∧ r = 2 * r' + e - threshold m ∧ k = clog2 m - 1 + 1 ∧
      readBits S p (clog2 m - 1) = some r' ∧ readBits S (p + (clog2 m - 1)) 1 = some e := by
  rw [readRemainder, if_neg (by omega)] at h
  obtain ⟨r', hr', h⟩ := Option.bind_eq_some_iff.1 h
  split at h
  · next hshort =>
    cases h
    exact .inl ⟨hshort, rfl, hr'⟩
  · next hlong =>
    obtain ⟨e, he, h⟩ := Option.bind_eq_some_iff.1 h
    cases h
    exact .inr ⟨r', e, Nat.le_of_not_lt hlong, rfl, rfl, hr', he⟩

/-- A remainder that is read is below the divisor, and its own bits stand where it was read. -/
theorem readRemainder_eq_some {S : BitSeq} {p m r k : Nat} (hm : 1 ≤ m)
    (h : readRemainder S p m = some (r, k)) :
    r < m ∧ k = (remainderBits r m).length ∧ remainderBits r m <+: S.drop p := by
  rcases hm.eq_or_lt with rfl | hm
  · cases h
    exact ⟨Nat.one_pos, rfl, List.nil_prefix⟩
  obtain ⟨c, hc, ht⟩ := exists_clog2_eq_succ hm
  have hsum : threshold m + m = 2 * 2 ^ c := by rw [threshold_add_self, hc, Nat.pow_succ']
  have hcases := readRemainder_cases hm h
  rw [hc, Nat.add_sub_cancel] at hcases
  rcases hcases with ⟨hshort, rfl, hr⟩ | ⟨r', e, hlong, hre, rfl, hr', he⟩
  · rw [remainderBits_short hm hshort, hc, Nat.add_sub_cancel, length_bitsOf]
    exact ⟨by omega, rfl, (readBits_eq_some hr).2⟩
  · obtain ⟨hr'lt, hr'bits⟩ := readBits_eq_some hr'
    obtain ⟨helt, hebits⟩ := readBits_eq_some he
    rw [Nat.pow_one] at helt
    have hbits : remainderBits r m = bitsOf r' c ++ bitsOf e 1 := by
      rw [remainderBits_long hm (by omega), show r + threshold m = 2 * r' + e by omega, hc, bitsOf_add,
        ← bitsOf_mod_two_pow (2 * r' + e) 1, Nat.pow_one, show (2 * r' + e) / 2 = r' by omega,
        show (2 * r' + e) % 2 = e by omega]
    refine ⟨by omega, by simp [hbits], hbits ▸ append_prefix_drop hr'bits ?_⟩
    rwa [length_bitsOf]

/-- Settles O10. -/
theorem remainderInRange : Obligations.RemainderInRange := fun _ _ _ _ _ hm h =>
  (readRemainder_eq_some hm h).1

/-- A number that is read has its own codeword at the place where it was read. -/
theorem readSymbol_eq_some {S : BitSeq} {pos m n k : Nat} (hm : 1 ≤ m)
    (h : readSymbol S pos m = some (n, k)) :
    k = codewordLen n m ∧ codewordBits n m <+: S.drop pos := by
  obtain ⟨q, hq, h⟩ := Option.bind_eq_some_iff.1 h
  obtain ⟨⟨r, l⟩, hrem, h⟩ := Option.bind_eq_some_iff.1 h
  obtain ⟨hr, hl, hrbits⟩ := readRemainder_eq_some hm hrem
  rw [if_neg hr.not_ge] at h
  cases h
  obtain ⟨hdiv, hmod⟩ : (q * m + r) / m = q ∧ (q * m + r) % m = r :=
    (Nat.div_mod_unique hm).2 ⟨by rw [Nat.mul_comm, Nat.add_comm], hr⟩
  have hbits : codewordBits (q * m + r) m =
      List.replicate q true ++ [false] ++ remainderBits r m := by
    rw [codewordBits, hdiv, hmod, List.append_cons]
  refine ⟨?length, hbits ▸ append_prefix_drop (unaryRun_eq_some hq) ?remainder⟩
  case length => rw [← length_codewordBits, hbits, List.length_append, hl]; simp
  case remainder => simpa using hrbits

theorem take_drop_of_readSymbol {S : BitSeq} {pos m n k : Nat} (hm : 1 ≤ m)
    (h : readSymbol S pos m = some (n, k)) : (S.drop pos).take k = codewordBits n m := by
  obtain ⟨hk, T, hT⟩ := readSymbol_eq_some hm h
  rw [← hT, hk, ← length_codewordBits, List.take_left]

/-- A source that ends inside a codeword holds no other codeword either. -/
theorem readSymbol_eq_none_of_cut {S : BitSeq} {pos m n : Nat} (hm : 1 ≤ m)
    (hpre : S.drop pos <+: codewordBits n m) (hlen : (S.drop pos).length < (codewordBits n m).length) :
    readSymbol S pos m = none := by
  refine Option.eq_none_iff_forall_ne_some.2 fun ⟨n', k⟩ h => ?_
  have hcw : codewordBits n' m <+: S.drop pos := (readSymbol_eq_some hm h).2
  have hn : n' = n := codewordsPrefixFree n' n m hm (hcw.trans hpre)
  exact absurd (hn ▸ hcw.length_le) hlen.not_ge

end Sys2Proof

namespace Sys2Proof.Machine

/-! ### Symbols and streams of symbols (43_golomb_decode.md rules R147, R149) -/

theorem decodeSym_eq_some {S : BitSeq} {pos m k : Nat} {mode : SignMode} {v : Int}
    (h : decodeSym S pos m mode = some (v, k)) :
    ∃ n, readSymbol S pos m = some (n, k) ∧ v = signUnmap mode n := by
  unfold decodeSym at h
  split at h
  · next nk hread =>
    cases h
    exact ⟨nk.1, hread, rfl⟩
  · cases h

theorem decodeSym_encodeSym {m : Nat} (hm : 1 ≤ m) (v : Int) (mode : SignMode) (S1 S2 : BitSeq) :
    decodeSym (S1 ++ encodeSym v m mode ++ S2) S1.length m mode =
      some (v, (encodeSym v m mode).length) := by
  rw [decodeSym, encodeSym, List.append_assoc, readSymbol_codewordBits hm, length_codewordBits]
  exact congrArg (fun v => some (v, _)) (signUnmap_signMap mode v)

theorem encodeSym_signUnmap_of_readSymbol {S : BitSeq} {pos m n k : Nat} {mode : SignMode} (hm : 1 ≤ m)
    (h : readSymbol S pos m = some (n, k)) (hn : signMap mode (signUnmap mode n) = n) :
    encodeSym (signUnmap mode n) m mode = (S.drop pos).take k := by
  rw [encodeSym, hn, take_drop_of_readSymbol hm h]

/-- Settles O9: the bits read are the codeword of the number read, and the mapping gives that number back
from its value, under SIGN_MAGNITUDE unless it was 1. -/
theorem symbolRoundTrip : Obligations.SymbolRoundTrip := by
  refine ⟨fun v m mode S1 S2 hm => decodeSym_encodeSym hm v mode S1 S2, ?interleaving, ?signMagnitude⟩
  case interleaving =>
    intro S pos m v k hm h
    obtain ⟨n, hread, rfl⟩ := decodeSym_eq_some h
    exact encodeSym_signUnmap_of_readSymbol hm hread (interleave_interleaveInv n)
  case signMagnitude =>
    intro S pos m n v k k' hm hread hne h
    obtain ⟨n', hread', rfl⟩ := decodeSym_eq_some h
    obtain ⟨rfl, rfl⟩ := Prod.mk.inj (Option.some.inj (hread.symm.trans hread'))
    exact encodeSym_signUnmap_of_readSymbol hm hread (signMag_signMagInv hne)

/-- One element of a list cuts what the list is written as into three parts. -/
theorem flatMap_append_eq_cut {α β : Type} (f : α → List β) {L : List α} {i : Nat} (h : i < L.length)
    (tail : List β) :
    L.flatMap f ++ tail =
      (L.take i).flatMap f ++ f L[i] ++ ((L.drop (i + 1)).flatMap f ++ tail) := by
  have hL : L = L.take i ++ L[i] :: L.drop (i + 1) := by
    rw [← List.drop_eq_getElem_cons h, List.take_append_drop]
  conv_lhs => rw [hL]
  rw [List.flatMap_append, List.flatMap_cons]
  simp only [List.append_assoc]

/-- Settles O13: the codewords before the i-th, and those after it with the tail, are what stands before
and after one symbol. -/
theorem streamDecodesSymbolBySymbol : Obligations.StreamDecodesSymbolBySymbol := by
  intro mode L tail i h hL
  rw [flatMap_append_eq_cut _ h tail]
  exact decodeSym_encodeSym (hL _ (List.getElem_mem h)) L[i].1 mode _ _

/-! ### G.DECODE (43_golomb_decode.md rules R140, R145) -/

theorem exec_gDecode_of_valid {s : State} (hv : s.g.valid = true) :
    exec .gDecode s = .next (gDecodeAt s.bit s.g.opPos s) :=
  requireG_of_valid hv

/-- Settles O18. -/
theorem gDecodeOfEncodedSymbol : Obligations.GDecodeOfEncodedSymbol := by
  intro s v S1 S2 hv hm hbit hpos
  have hsym : decodeSym s.bit s.g.opPos s.g.m.toNat s.g.mode =
      some (v, (encodeSym v s.g.m.toNat s.g.mode).length) := by
    rw [hbit, hpos, decodeSym_encodeSym hm]
  have ht := gDecodeAt_of_decodeSym hsym
  exact ⟨_, exec_gDecode_of_valid hv, by rw [ht]; rfl, by rw [ht]; rfl, by rw [ht]; rfl,
    gDecodeAt_frame s.bit s.g.opPos s⟩

/-- Settles O19. -/
theorem gDecodeMalformedWhenCut : Obligations.GDecodeMalformedWhenCut := by
  intro s n hv hm hpre hlen
  have hsym : decodeSym s.bit s.g.opPos s.g.m.toNat s.g.mode = none := by
    rw [decodeSym, readSymbol_eq_none_of_cut hm hpre hlen]
  refine ⟨_, exec_gDecode_of_valid hv, ?malformed, gDecodeAt_frame s.bit s.g.opPos s⟩
  case malformed => rw [gDecodeAt_of_decodeSym_eq_none hsym]; rfl

end Sys2Proof.Machine
end

section
/-! PROOF. The six predictors as functions of the neighbour window (L, A, C): their values, their ranges and
their values on the border of a raster; and the predictor ids as words (44_predictor.md rules R157 to R165). -/

namespace Sys2Proof.Machine

/-! ### PAETH (44_predictor.md rule R160) -/

/-- Which neighbour PAETH answers, by the distances to `l + a - c`: the branches of its definition, each with
what the branches before it leave. -/
theorem predictPaeth_cases (l a c : Int) :
    ((l + a - c - l).natAbs ≤ (l + a - c - a).natAbs ∧ (l + a - c - l).natAbs ≤ (l + a - c - c).natAbs ∧
      predictPaeth l a c = l) ∨
    ((l + a - c - a).natAbs < (l + a - c - l).natAbs ∧ (l + a - c - a).natAbs ≤ (l + a - c - c).natAbs ∧
      predictPaeth l a c = a) ∨
    ((l + a - c - c).natAbs < (l + a - c - l).natAbs ∧ (l + a - c - c).natAbs < (l + a - c - a).natAbs ∧
      predictPaeth l a c = c) := by
  unfold predictPaeth
  dsimp only
  split
  · next hl => exact .inl ⟨hl.1, hl.2, rfl⟩
  · split
    · next ha => exact .inr (.inl ⟨by omega, ha, rfl⟩)
    · exact .inr (.inr ⟨by omega, by omega, rfl⟩)

/-- Settles O25: in each case of `predictPaeth_cases` the answer has the least distance, and the neighbours
that win ties against it are strictly further away. -/
theorem paethPicksClosest : Obligations.PaethPicksClosest := by
  intro l a c p q
  dsimp only [p, q]
  rcases predictPaeth_cases l a c with ⟨hla, hlc, hq⟩ | ⟨hal, hac, hq⟩ | ⟨hcl, hca, hq⟩ <;> rw [hq]
  · exact ⟨⟨le_rfl, hla, hlc⟩, .inl rfl, fun _ => rfl, fun hne => absurd rfl hne⟩
  · exact ⟨⟨hal.le, le_rfl, hac⟩, .inr (.inl rfl), fun h => absurd h hal.ne', fun _ _ => rfl⟩
  · exact ⟨⟨hcl.le, hca.le, le_rfl⟩, .inr (.inr rfl), fun h => absurd h hcl.ne',
      fun _ h => absurd h hca.ne'⟩

/-- With equal A and C the plane value is L itself. -/
theorem predictPaeth_eq_left (l a : Int) : predictPaeth l a a = l := by
  rcases predictPaeth_cases l a a with ⟨-, -, hq⟩ | ⟨hal, -, -⟩ | ⟨hcl, -, -⟩
  · exact hq
  · omega
  · omega

/-- With equal L and C the plane value is A itself. -/
theorem predictPaeth_eq_above (a c : Int) : predictPaeth c a c = a := by
  rcases predictPaeth_cases c a c with ⟨hla, -, hq⟩ | ⟨-, -, hq⟩ | ⟨-, hca, -⟩
  · omega
  · exact hq
  · omega

/-! ### The halving predictors (44_predictor.md rules R159, R162) -/

/-- Halving with truncation, by the sign of what is halved. -/
theorem tdiv_two_eq_ite (x : Int) : x.tdiv 2 = if 0 ≤ x then x / 2 else -(-x / 2) := by
  split
  · next h => exact Int.tdiv_eq_ediv_of_nonneg h
  · next h => rw [← Int.tdiv_eq_ediv_of_nonneg (by omega : 0 ≤ -x), Int.neg_tdiv, neg_neg]

theorem predictAverage_natCast (l a : Nat) (c : Int) : predictAverage l a c = ((l + a) / 2 : Nat) := by
  rw [predictAverage, tdiv_two_eq_ite]
  omega

/-- Truncation halves the distance between A and C, whichever is the greater. -/
theorem predictGradient_natCast (l a c : Nat) :
    predictGradient l a c =
      if c ≤ a then (l : Int) + ((a - c) / 2 : Nat) else (l : Int) - ((c - a) / 2 : Nat) := by
  rw [predictGradient, tdiv_two_eq_ite]
  split <;> omega

/-! ### Ranges (44_predictor.md rule R164) -/

/-- A residual is least where a sample 0 meets the greatest prediction, and greatest where a sample 255
meets the least. -/
theorem residualRange_of_predictorRange {f : Int → Int → Int → Int} {lo hi : Int}
    (h : predictorRange f (255 - hi) (0 - lo)) : residualRange f lo hi := by
  refine ⟨h, fun v l a c hv hl hl' ha ha' hc hc' => ?_⟩
  obtain ⟨hlo, hhi⟩ := h.1 l a c hl hl' ha ha' hc hc'
  unfold residualOf
  omega

theorem predictorRange_prev : predictorRange predictPrev 0 255 :=
  ⟨fun _ _ _ hl hl' _ _ _ _ => ⟨hl, hl'⟩, ⟨0, 0, 0, by decide⟩, ⟨255, 0, 0, by decide⟩⟩

theorem predictorRange_above : predictorRange predictAbove 0 255 :=
  ⟨fun _ _ _ _ _ ha ha' _ _ => ⟨ha, ha'⟩, ⟨0, 0, 0, by decide⟩, ⟨0, 255, 0, by decide⟩⟩

theorem predictorRange_average : predictorRange predictAverage 0 255 := by
  refine ⟨fun l a c hl hl' ha ha' _ _ => ?bounds, ⟨0, 0, 0, by decide⟩, ⟨255, 255, 0, by decide⟩⟩
  case bounds => rw [predictAverage, tdiv_two_eq_ite]; omega

theorem predictorRange_paeth : predictorRange predictPaeth 0 255 := by
  refine ⟨fun l a c hl hl' ha ha' hc hc' => ?bounds, ⟨0, 0, 0, by decide⟩, ⟨255, 255, 255, by decide⟩⟩
  case bounds =>
    rcases predictPaeth_cases l a c with ⟨-, -, hq⟩ | ⟨-, -, hq⟩ | ⟨-, -, hq⟩ <;> rw [hq]
    · exact ⟨hl, hl'⟩
    · exact ⟨ha, ha'⟩
    · exact ⟨hc, hc'⟩

theorem predictorRange_jpegLs : predictorRange predictJpegLs (-255) 510 := by
  refine ⟨fun l a c hl hl' ha ha' hc hc' => ?bounds, ⟨0, 0, 255, by decide⟩, ⟨255, 255, 0, by decide⟩⟩
  case bounds => unfold predictJpegLs; omega

theorem predictorRange_gradient : predictorRange predictGradient (-127) 382 := by
  refine ⟨fun l a c hl hl' ha ha' hc hc' => ?bounds, ⟨0, 0, 255, by decide⟩, ⟨255, 255, 0, by decide⟩⟩
  case bounds => rw [predictGradient, tdiv_two_eq_ite]; omega

/-- Settles O23: the residuals' ranges follow from the predictions'. -/
theorem predictorRanges : Obligations.PredictorRanges :=
  ⟨⟨predictorRange_prev, residualRange_of_predictorRange predictorRange_prev⟩,
    ⟨predictorRange_above, residualRange_of_predictorRange predictorRange_above⟩,
    ⟨predictorRange_average, residualRange_of_predictorRange predictorRange_average⟩,
    ⟨predictorRange_paeth, residualRange_of_predictorRange predictorRange_paeth⟩,
    ⟨predictorRange_jpegLs, residualRange_of_predictorRange predictorRange_jpegLs⟩,
    predictorRange_gradient, residualRange_of_predictorRange predictorRange_gradient⟩

/-! ### The border of a raster (44_predictor.md rule R165) -/

/-- At the corner every neighbour is missing. -/
theorem predictionAt_corner (pred : Predictor) (m : Memory) (W : Nat) :
    predictionAt pred m W 0 0 = predict pred 0 0 0 := rfl

/-- On the first row only the west neighbour is there. -/
theorem predictionAt_first_row (pred : Predictor) (m : Memory) (W : Nat) {x : Nat} (hx : 0 < x) :
    predictionAt pred m W x 0 = predict pred (sample m (x - 1)) 0 0 := by
  simp [predictionAt, westOf, northOf, northWestOf, hx.ne']

/-- In the first column only the north neighbour is there. -/
theorem predictionAt_first_column (pred : Predictor) (m : Memory) (W : Nat) {y : Nat} (hy : 0 < y) :
    predictionAt pred m W 0 y = predict pred 0 (sample m ((y - 1) * W)) 0 := by
  simp [predictionAt, westOf, northOf, northWestOf, hy.ne']

theorem predict_zero (pred : Predictor) : predict pred 0 0 0 = 0 := by
  cases pred <;> rfl

/-- Settles O24: with one neighbour `v`, or none, each predictor gives `v`, its half, or 0. -/
theorem borderPredictions : Obligations.BorderPredictions := by
  refine fun m W => ⟨fun pred v => ?corner, fun x hx => ?row, fun y hy => ?column⟩
  case corner =>
    rw [predictionAt_corner, predict_zero]
    exact ⟨rfl, Int.sub_zero _⟩
  case row =>
    simp only [predictionAt_first_row _ m W hx]
    generalize sample m (x - 1) = v
    exact ⟨rfl, rfl, predictAverage_natCast v 0 0, predictPaeth_eq_left v 0,
      by simp [predict, predictJpegLs], by simp [predict, predictGradient]⟩
  case column =>
    simp only [predictionAt_first_column _ m W hy]
    generalize sample m ((y - 1) * W) = v
    have haverage : predictAverage 0 v 0 = (v / 2 : Nat) := by simpa using predictAverage_natCast 0 v 0
    have hgradient : predictGradient 0 v 0 = (v / 2 : Nat) := by simpa using predictGradient_natCast 0 v 0
    exact ⟨rfl, rfl, haverage, predictPaeth_eq_above v 0, by simp [predict, predictJpegLs], hgradient⟩

/-! ### Predictor ids as words (44_predictor.md rule R163) -/

theorem writeOpPred_frame (code : BitVec 4) (s : State) :
    (writeOpPred code s).i.opW = s.i.opW ∧ (writeOpPred code s).i.opH = s.i.opH ∧
      (writeOpPred code s).i.opLen = s.i.opLen ∧ iConfigKept s (writeOpPred code s) ∧
      (writeOpPred code s).i.err = s.i.err ∧ (writeOpPred code s).g = s.g ∧
      (writeOpPred code s).fr = s.fr ∧ bitsKept s (writeOpPred code s) ∧
      rasterKept s (writeOpPred code s) ∧ ownKept s (writeOpPred code s) := by
  simp [writeOpPred, iConfigKept, bitsKept, rasterKept, ownKept]

/-- At the select input the window's prediction is what the multiplexer shows. -/
theorem selectPredictor_select_of_eq (code : BitVec 4) {f : Int → Int → Int → Int} {s : State} {v : Int}
    (h : f s.fr.l.toNat s.fr.a.toNat s.fr.c.toNat = v) :
    selectPredictor code f .select s = .next (s.setProbe { s.probe with p := v }) := by
  rw [selectPredictor, h]

/-- Settles O42: a word runs `selectPredictor` with its id and its predictor, at its place. -/
theorem predictorWords : Obligations.PredictorWords := by
  refine ⟨fun s e he => ?operand, fun s l a c hl ha hc e he => ?select⟩
  case operand =>
    obtain ⟨code, hx, hcode⟩ : ∃ code, exec e.1 s = .next (writeOpPred code s) ∧ code.toNat = e.2 := by
      fin_cases he <;> exact ⟨_, rfl, rfl⟩
    exact ⟨_, hx, hcode, writeOpPred_frame code s⟩
  case select =>
    subst hl ha hc
    have hx : exec e.1 s = .next (s.setProbe { s.probe with p := e.2 }) := by
      fin_cases he
      · exact selectPredictor_select_of_eq 0 rfl
      · exact selectPredictor_select_of_eq 1 rfl
      · exact selectPredictor_select_of_eq 2 (predictAverage_natCast _ _ _)
      · exact selectPredictor_select_of_eq 3 rfl
      · exact selectPredictor_select_of_eq 4 rfl
      · exact selectPredictor_select_of_eq 5 (predictGradient_natCast _ _ _)
    exact ⟨_, hx, rfl, rfl, rfl, setProbe_frame _ s⟩

end Sys2Proof.Machine
end

section
/-! PROOF. The clamp and the reconstruction adder (00_scope.md rule R8, 45_residual.md rules R175, R176, R178). -/

namespace Sys2Proof.Machine

/-! ### The clamp (00_scope.md rule R8) -/

theorem clamp255_of_neg {v : Int} (h : v < 0) : clamp255 v = 0 := if_pos h

theorem clamp255_of_gt {v : Int} (h : 255 < v) : clamp255 v = 255 := by
  rw [clamp255, if_neg (by omega), if_pos h]

theorem clamp255_toNat {v : Int} (h0 : 0 ≤ v) (h255 : v ≤ 255) : ((clamp255 v).toNat : Int) = v := by
  rw [clamp255, if_neg (by omega), if_neg (by omega), BitVec.toNat_ofInt]
  omega

@[simp] theorem clamp255_natCast_toNat (b : Byte) : clamp255 (b.toNat : Int) = b := by
  have hlt : b.toNat < 256 := b.isLt
  have hval : ((clamp255 (b.toNat : Int)).toNat : Int) = b.toNat := clamp255_toNat (by omega) (by omega)
  exact BitVec.eq_of_toNat_eq (by exact_mod_cast hval)

/-! ### The adder undoes the subtractor (45_residual.md rule R178) -/

theorem add_residualOf (sample : Nat) (p : Int) : p + residualOf sample p = sample :=
  add_sub_cancel p (sample : Int)

@[simp] theorem reconstruct_residualOf (b : Byte) (p : Int) : reconstruct p (residualOf b.toNat p) = b := by
  rw [reconstruct, add_residualOf, clamp255_natCast_toNat]

/-- Settles O26: the clauses of the clamp at `p + res`, and the lossless sum, which the clamp passes. -/
theorem reconstructionClampsAndInverts : Obligations.ReconstructionClampsAndInverts :=
  ⟨fun _ _ => ⟨clamp255_of_neg, clamp255_of_gt, clamp255_toNat⟩, reconstruct_residualOf⟩

end Sys2Proof.Machine
end

section
/-! PROOF. The parameter estimator: the integer test, the search for its largest number, the real formula it
stands for, and the range of the result (46_param_select.md). -/

namespace Sys2Proof.Machine

/-! ### The integer test (46_param_select.md rule R187) -/

theorem divisorFits_iff {S N k : Nat} :
    divisorFits S N k ↔ (S + N) ^ (2 * k - 1) ≤ 4 * S ^ (2 * k - 1) := decide_eq_true_iff

theorem not_divisorFits_iff {S N k : Nat} :
    ¬ divisorFits S N k ↔ 4 * S ^ (2 * k - 1) < (S + N) ^ (2 * k - 1) := by
  rw [divisorFits_iff, not_le]

theorem divisorFits_zero {S N : Nat} : divisorFits S N 0 := by simp [divisorFits_iff]

/-- A power above four times the other stays above it at every larger exponent. -/
theorem four_mul_pow_lt_add_pow_of_le {S N n n' : Nat} (hS : 0 < S) (hn : n ≤ n')
    (h : 4 * S ^ n < (S + N) ^ n) : 4 * S ^ n' < (S + N) ^ n' := by
  obtain ⟨d, rfl⟩ := Nat.exists_eq_add_of_le hn
  have hd : S ^ d ≤ (S + N) ^ d := Nat.pow_le_pow_left (Nat.le_add_right S N) d
  calc 4 * S ^ (n + d) = 4 * S ^ n * S ^ d := by rw [pow_add, mul_assoc]
    _ < (S + N) ^ n * (S + N) ^ d := Nat.mul_lt_mul_of_lt_of_le h hd (by positivity)
    _ = (S + N) ^ (n + d) := (pow_add ..).symm

/-- The numbers that fit are an initial segment. -/
theorem divisorFits_of_le {S N k k' : Nat} (hS : 0 < S) (hk : k ≤ k') (h : divisorFits S N k') :
    divisorFits S N k := by
  by_contra hn
  exact not_divisorFits_iff.2
    (four_mul_pow_lt_add_pow_of_le hS (by omega) (not_divisorFits_iff.1 hn)) h

/-- `mstar` is at most `S + 1/2`: by Bernoulli's inequality `1 + 1/S` doubles in `S` factors. -/
theorem not_divisorFits_of_gt {S N k : Nat} (hS : 0 < S) (hN : 0 < N) (hk : S < k) :
    ¬ divisorFits S N k := by
  have hdouble : 2 * S ^ S ≤ (S + N) ^ S :=
    calc 2 * S ^ S = S ^ S + S * S ^ (S - 1) * 1 := by rw [mul_one, mul_pow_sub_one hS.ne', two_mul]
      _ ≤ S ^ S + S * S ^ (S - 1) * N := by gcongr; exact hN
      _ ≤ (S + N) ^ S := pow_add_mul_le_add_pow (Nat.zero_le _) (Nat.zero_le _) S
  have hstep : 4 * S ^ (2 * S + 1) < (S + N) ^ (2 * S + 1) :=
    calc 4 * S ^ (2 * S + 1) = 2 * S ^ S * (2 * S ^ S) * S := by ring
      _ < (S + N) ^ S * (S + N) ^ S * (S + N) :=
        Nat.mul_lt_mul_of_le_of_lt (Nat.mul_le_mul hdouble hdouble) (by omega) (by positivity)
      _ = (S + N) ^ (2 * S + 1) := by ring
  exact not_divisorFits_iff.2 (four_mul_pow_lt_add_pow_of_le hS (by omega) hstep)

/-! ### The search for the largest number that fits -/

theorem le_iff_divisorFits_of_last {S N k j : Nat} (hS : 0 < S) (hk : divisorFits S N k)
    (hlast : ¬ divisorFits S N (k + 1)) : j ≤ k ↔ divisorFits S N j where
  mp hj := divisorFits_of_le hS hj hk
  mpr hj := by
    by_contra hlt
    exact hlast (divisorFits_of_le hS (by omega) hj)

/-- From a number that fits, with fuel to reach one that does not, the search finds the last that fits. -/
theorem le_largestFit_iff {fuel S N k j : Nat} (hS : 0 < S) (hk : divisorFits S N k)
    (hfuel : ¬ divisorFits S N (k + fuel + 1)) :
    j ≤ largestFit fuel S N k ↔ divisorFits S N j := by
  induction fuel generalizing k with
  | zero => exact le_iff_divisorFits_of_last hS hk hfuel
  | succ fuel ih =>
    rw [largestFit]
    split
    case isTrue hnext => exact ih hnext (by rwa [Nat.add_right_comm k 1 fuel])
    case isFalse hlast => exact le_iff_divisorFits_of_last hS hk hlast

/-! ### The sum of the magnitudes (10_state.md rule R25) -/

theorem length_pos_of_sumAbs_pos {res : List Int} (h : 0 < sumAbs res) : 0 < res.length := by
  cases res with
  | nil => exact h
  | cons r rs => exact Nat.succ_pos _

theorem sumAbs_le {res : List Int} {B : Nat} (h : ∀ r ∈ res, r.natAbs ≤ B) :
    sumAbs res ≤ B * res.length := by
  have hle := List.sum_le_card_nsmul (res.map Int.natAbs) B (List.forall_mem_map.2 h)
  rwa [List.length_map, smul_eq_mul, mul_comm] at hle

/-! ### The estimator in integers (46_param_select.md rule R187) -/

theorem selectM_of_sumAbs_eq_zero {res : List Int} (h : sumAbs res = 0) : selectM res = 1 := if_pos h

theorem one_le_selectM (res : List Int) : 1 ≤ selectM res := by
  rw [selectM]
  split
  · exact le_rfl
  · exact le_max_left _ _

/-- All that `selectM` is, above the 1 of `max(1, .)`: the least upper bound of the numbers that fit. -/
theorem le_selectM_iff {res : List Int} {k : Nat} (hS : 0 < sumAbs res) (hk : 2 ≤ k) :
    k ≤ selectM res ↔ divisorFits (sumAbs res) res.length k := by
  have hfuel : ¬ divisorFits (sumAbs res) res.length (0 + (sumAbs res + 1) + 1) :=
    not_divisorFits_of_gt hS (length_pos_of_sumAbs_pos hS) (by omega)
  rw [selectM, if_neg hS.ne', ← le_largestFit_iff hS divisorFits_zero hfuel]
  omega

/-- Settles O27: `le_selectM_iff` at the numbers above the result and at the result. -/
theorem selectMIsLargestFit : Obligations.SelectMIsLargestFit := by
  refine fun res => ⟨selectM_of_sumAbs_eq_zero, fun hS =>
    ⟨one_le_selectM res, fun k hk => ?above, ?fits, ?initial⟩⟩
  case above =>
    have hk2 : 2 ≤ k := (one_le_selectM res).trans_lt hk
    exact not_divisorFits_iff.1 (mt (le_selectM_iff hS hk2).2 hk.not_ge)
  case fits =>
    rcases (one_le_selectM res).eq_or_lt with h1 | h2
    · exact .inl h1.symm
    · exact .inr (divisorFits_iff.1 ((le_selectM_iff hS h2).1 le_rfl))
  case initial =>
    exact fun k k' _ hk h => divisorFits_iff.1 (divisorFits_of_le hS hk (divisorFits_iff.2 h))

/-! ### The range (46_param_select.md rule R188) -/

/-- A number fits a mean of at most `B` only if it fits the mean `B`, of one residual `B`. -/
theorem divisorFits_of_mean_le {S N B k : Nat} (hS : 0 < S) (hSB : S ≤ B * N) (h : divisorFits S N k) :
    divisorFits B 1 k := by
  rw [divisorFits_iff] at *
  generalize 2 * k - 1 = n at *
  refine Nat.le_of_mul_le_mul_right ?_ (Nat.pow_pos hS : 0 < S ^ n)
  calc (B + 1) ^ n * S ^ n = (B * S + S) ^ n := by rw [← mul_pow]; ring
    _ ≤ (B * S + B * N) ^ n := by gcongr
    _ = B ^ n * (S + N) ^ n := by rw [← mul_pow, mul_add]
    _ ≤ B ^ n * (4 * S ^ n) := by gcongr
    _ = 4 * B ^ n * S ^ n := by ring

theorem selectM_le_of_natAbs_le {res : List Int} {B M : Nat} (hB : ∀ r ∈ res, r.natAbs ≤ B) (hM : 1 ≤ M)
    (hfit : ¬ divisorFits B 1 (M + 1)) : selectM res ≤ M := by
  rcases (sumAbs res).eq_zero_or_pos with h0 | hS
  · rwa [selectM_of_sumAbs_eq_zero h0]
  · by_contra hgt
    have hfits := (le_selectM_iff hS (by omega)).1 (Nat.lt_of_not_ge hgt)
    exact hfit (divisorFits_of_mean_le hS (sumAbs_le hB) hfits)

/-- The test fails at `k` if it fails at a smaller exponent; a product keeps each power small to evaluate. -/
theorem not_divisorFits_of_pow_pow {S N k a b : Nat} (hS : 0 < S) (hab : a * b ≤ 2 * k - 1)
    (h : 4 * (S ^ a) ^ b < ((S + N) ^ a) ^ b) : ¬ divisorFits S N k := by
  rw [← pow_mul, ← pow_mul] at h
  exact not_divisorFits_iff.2 (four_mul_pow_lt_add_pow_of_le hS hab h)

theorem not_divisorFits_255 : ¬ divisorFits 255 1 178 :=
  not_divisorFits_of_pow_pow (a := 5) (b := 71) (by decide) (by decide) (by norm_num)

theorem not_divisorFits_382 : ¬ divisorFits 382 1 266 :=
  not_divisorFits_of_pow_pow (a := 9) (b := 59) (by decide) (by decide) (by norm_num)

theorem not_divisorFits_510 : ¬ divisorFits 510 1 355 :=
  not_divisorFits_of_pow_pow (a := 12) (b := 59) (by decide) (by decide) (by norm_num)

/-- Settles O29: at each bound on the residuals, the number above the bound of the result does not fit. -/
theorem selectMRange : Obligations.SelectMRange := fun res =>
  ⟨one_le_selectM res, fun h => selectM_le_of_natAbs_le h (by decide) not_divisorFits_255,
    fun h => selectM_le_of_natAbs_le h (by decide) not_divisorFits_382,
    fun h => selectM_le_of_natAbs_le h (by decide) not_divisorFits_510⟩

/-! ### The real formula (46_param_select.md rules R185, R186) -/

theorem sumAbs_eq_zero_of_mean_lt {res : List Int} (hN : 0 < res.length)
    (hcap : res.length ≤ 65535 * 65535) (h : (sumAbs res : ℝ) / res.length < 1 / 10 ^ 10) :
    sumAbs res = 0 := by
  have hlen : (res.length : ℝ) ≤ 65535 * 65535 := by exact_mod_cast hcap
  rw [div_lt_iff₀ (by exact_mod_cast hN)] at h
  have hlt : (sumAbs res : ℝ) < 1 := by linarith
  exact Nat.lt_one_iff.1 (by exact_mod_cast hlt)

/-- `mstar` in terms of the quotient of the integer test: `1 / log2 ((S + N) / S)`. -/
theorem neg_one_div_logb_eq {S N : ℝ} (hS : 0 < S) (hN : 0 < N) :
    -1 / Real.logb 2 (1 - 1 / (S / N + 1)) = Real.log 2 / Real.log ((S + N) / S) := by
  have hinv : 1 - 1 / (S / N + 1) = ((S + N) / S)⁻¹ := by
    field_simp
    ring
  rw [hinv, Real.logb_inv, neg_div_neg_eq, Real.logb, one_div_div]

/-- The integer test at `k` is `k - 1/2 ≤ mstar`. -/
theorem divisorFits_iff_le_mstar {S N k : Nat} (hS : 0 < S) (hN : 0 < N) (hk : 1 ≤ k) :
    divisorFits S N k ↔
      (k : ℝ) - 1 / 2 ≤ -1 / Real.logb 2 (1 - 1 / ((S : ℝ) / N + 1)) := by
  have hS' : (0 : ℝ) < S := Nat.cast_pos.2 hS
  have hN' : (0 : ℝ) < N := Nat.cast_pos.2 hN
  have hq : 1 < ((S : ℝ) + N) / S := by rw [one_lt_div hS']; linarith
  have hexp : ((2 * k - 1 : ℕ) : ℝ) = 2 * k - 1 := by
    rw [Nat.cast_sub (by omega)]
    norm_num
  have hlog4 : Real.log 4 = 2 * Real.log 2 := by
    rw [show (4 : ℝ) = 2 ^ 2 by norm_num, Real.log_pow, Nat.cast_ofNat]
  calc (divisorFits S N k : Prop)
    _ ↔ ((S : ℝ) + N) ^ (2 * k - 1) ≤ 4 * (S : ℝ) ^ (2 * k - 1) := by
      rw [divisorFits_iff]
      exact_mod_cast Iff.rfl
    _ ↔ (((S : ℝ) + N) / S) ^ (2 * k - 1) ≤ 4 := by rw [div_pow, div_le_iff₀ (by positivity)]
    _ ↔ (2 * k - 1) * Real.log (((S : ℝ) + N) / S) ≤ 2 * Real.log 2 := by
      rw [← Real.log_le_log_iff (by positivity) (by norm_num), Real.log_pow, hexp, hlog4]
    _ ↔ (k : ℝ) - 1 / 2 ≤ Real.log 2 / Real.log (((S : ℝ) + N) / S) := by
      rw [le_div_iff₀ (Real.log_pos hq)]
      constructor <;> intro h <;> linarith
    _ ↔ _ := by rw [neg_one_div_logb_eq hS' hN']

/-- The estimator and the rounded `mstar` have the same lower bounds. -/
theorem selectM_eq_round_mstar {res : List Int} (hS : 0 < sumAbs res) :
    (selectM res : ℤ) =
      max 1 ⌊-1 / Real.logb 2 (1 - 1 / ((sumAbs res : ℝ) / res.length + 1)) + 1 / 2⌋ := by
  refine eq_of_forall_le_iff fun z => ?_
  rcases le_or_gt z 1 with hz | hz
  · exact iff_of_true (hz.trans (by exact_mod_cast one_le_selectM res)) (le_max_of_le_left hz)
  · lift z to ℕ using by omega with k
    have hk : 2 ≤ k := by exact_mod_cast hz
    rw [Nat.cast_le, le_selectM_iff hS hk,
      divisorFits_iff_le_mstar hS (length_pos_of_sumAbs_pos hS) (by omega), le_max_iff,
      or_iff_right hz.not_ge, Int.le_floor, Int.cast_natCast, sub_le_iff_le_add]

/-- Settles O28: a mean under the threshold is 0, and above it the sum is positive. -/
theorem selectMComputesRealFormula : Obligations.SelectMComputesRealFormula := by
  refine fun res hN hcap => ⟨fun h => ?_, fun h => selectM_eq_round_mstar ?_⟩
  · exact selectM_of_sumAbs_eq_zero (sumAbs_eq_zero_of_mean_lt hN hcap h)
  · by_contra hS
    rw [Nat.eq_zero_of_not_pos hS] at h
    norm_num at h

end Sys2Proof.Machine
end

section
/-! PROOF. The operations I.CONSTRUCT and I.ENCODE (47_image_encode.md): the raster positions, the residuals
of an image, the frame they are written as, and what the operations leave unchanged. -/

namespace Sys2Proof.Machine

/-! ### I.CONSTRUCT (47_image_encode.md rule R195) -/

theorem ofId_eq_none_of_gt {id : Nat} (h : 5 < id) : Predictor.ofId id = none := by
  obtain ⟨n, rfl⟩ := Nat.exists_eq_add_of_le' h
  rfl

theorem exists_ofId_eq_some {id : Nat} (h : id ≤ 5) : ∃ pred, Predictor.ofId id = some pred := by
  interval_cases id <;> exact ⟨_, rfl⟩

theorem execIConstruct_of_reserved {s : State} (h : 5 < s.i.opPred.toNat) :
    execIConstruct s = .refused (.reservedPredictor s.i.opPred) := by
  rw [execIConstruct, ofId_eq_none_of_gt h]

theorem execIConstruct_of_ofId {s : State} {pred : Predictor}
    (h : Predictor.ofId s.i.opPred.toNat = some pred) :
    execIConstruct s = .next (s.setI { s.i with pred := pred, valid := true, err := .ok }) := by
  rw [execIConstruct, h]

/-- Settles O30: an id up to 5 selects the predictor whose code it is, and a greater one selects none. -/
theorem iConstructEffect : Obligations.IConstructEffect := by
  refine ⟨rfl, fun s => ⟨execIConstruct_of_reserved, fun hid => ?effect⟩⟩
  case effect =>
    obtain ⟨pred, hpred⟩ := exists_ofId_eq_some hid
    exact ⟨_, execIConstruct_of_ofId hpred, (eq_code_of_ofId hpred).symm, rfl, rfl,
      ⟨rfl, rfl, rfl, rfl⟩, rfl, rfl, ⟨rfl, fun _ => rfl⟩, fun _ => rfl, ⟨rfl, rfl⟩⟩

/-! ### The shape and the frame of I.ENCODE (47_image_encode.md rules R196, R197) -/

theorem shapeBad_iff {s : State} :
    shapeBad s = true ↔
      s.i.opW = 0 ∨ s.i.opH = 0 ∨ 65535 < s.i.opW ∨ 65535 < s.i.opH ∨
        s.i.opW * s.i.opH ≠ s.i.opLen := by
  simp only [shapeBad, dimsBad, Bool.or_eq_true, decide_eq_true_eq, or_assoc]
  rfl

theorem shapeBad_eq_false_of_legal {s : State} (hdims : dimsLegal s)
    (hlen : s.i.opW * s.i.opH = s.i.opLen) : shapeBad s = false := by
  rw [Bool.eq_false_iff, Ne, shapeBad_iff]
  omega

theorem endImage_setBit_frame (k : ErrCode) (S : BitSeq) (s : State) :
    (endImage k (s.setBit S)).i.err = k ∧ (endImage k (s.setBit S)).g = s.g ∧
      iConfigKept s (endImage k (s.setBit S)) ∧ iOperandsKept s (endImage k (s.setBit S)) ∧
      rasterKept s (endImage k (s.setBit S)) ∧ ownKept s (endImage k (s.setBit S)) :=
  ⟨rfl, rfl, ⟨rfl, rfl⟩, ⟨rfl, rfl, rfl, rfl⟩, fun _ => rfl, rfl, rfl⟩

section EmptySink
variable {s : State} (hv : s.i.valid = true) (hb : s.bit = [])
include hv hb

theorem execIEncode_of_shapeBad (hs : shapeBad s = true) :
    execIEncode s = .next (failIEncode .invalidShape s) := by
  rw [execIEncode, requireI_of_valid hv, if_neg (not_not.2 hb), if_pos hs]

theorem execIEncode_of_encodeImage {F : BitSeq} (hs : shapeBad s = false)
    (hF : encodeImage s.i.pred s.pix s.i.opW s.i.opH = .ok F) :
    execIEncode s = .next (endImage .ok (s.setBit F)) := by
  rw [execIEncode, requireI_of_valid hv, if_neg (not_not.2 hb), if_neg (ne_true_of_eq_false hs), hF]

end EmptySink

/-- An I.ENCODE that ends with OK has written the frame of its image. -/
theorem encodeImage_eq_ok_of_execIEncode {s t : State} (h : execIEncode s = .next t)
    (hok : t.i.err = .ok) : encodeImage s.i.pred s.pix s.i.opW s.i.opH = .ok t.bit := by
  obtain ⟨-, -, ⟨-, rfl⟩ | ⟨-, F, hF, rfl⟩⟩ := execIEncode_eq_next h
  · cases hok
  · exact hF

/-- Settles O31: an error is the end of an operation that has written the sink only. -/
theorem iEncodeInvalidShape : Obligations.IEncodeInvalidShape := fun s hv hb hshape =>
  ⟨_, execIEncode_of_shapeBad hv hb (shapeBad_iff.2 hshape), endImage_setBit_frame .invalidShape _ s⟩

/-! ### Positions in raster order (10_state.md rule R21) -/

/-- The position (column, row) of the sample at address `k` of a raster of width `W`. -/
def rasterPos (W k : Nat) : Nat × Nat := (k % W, k / W)

theorem rasterPos_of_address {W x y k : Nat} (hx : x < W) (hk : x + W * y = k) :
    rasterPos W k = (x, y) := by
  obtain ⟨hdiv, hmod⟩ := (Nat.div_mod_unique (Nat.zero_lt_of_lt hx)).2 ⟨hk, hx⟩
  rw [rasterPos, hdiv, hmod]

theorem rasterPos_mul_add {W x : Nat} (hx : x < W) (y : Nat) : rasterPos W (y * W + x) = (x, y) :=
  rasterPos_of_address hx (by rw [Nat.add_comm, Nat.mul_comm])

theorem rasterPos_zero {W : Nat} (hW : 0 < W) : rasterPos W 0 = (0, 0) := rasterPos_of_address hW rfl

theorem rasterPos_column_lt {W : Nat} (hW : 0 < W) (k : Nat) : (rasterPos W k).1 < W := Nat.mod_lt k hW

/-- The sequencer walks through the addresses in order. -/
theorem nextPos_rasterPos {W : Nat} (hW : 0 < W) (k : Nat) :
    nextPos W (rasterPos W k) = rasterPos W (k + 1) := by
  have hk : k % W + W * (k / W) = k := Nat.mod_add_div k W
  rw [nextPos, rasterPos]
  split
  case isTrue hin =>
    refine (rasterPos_of_address hin ?_).symm
    dsimp only
    omega
  case isFalse hend =>
    have hlt : k % W < W := Nat.mod_lt k hW
    refine (rasterPos_of_address hW ?_).symm
    dsimp only at hend ⊢
    rw [Nat.mul_succ]
    omega

theorem rasterPos_address (W k : Nat) : (rasterPos W k).2 * W + (rasterPos W k).1 = k :=
  Nat.div_add_mod' k W

/-- Every pixel of the image stands below `W * H`. -/
theorem address_lt {W H x y : Nat} (hx : x < W) (hy : y < H) : y * W + x < W * H :=
  calc y * W + x < (y + 1) * W := by rw [Nat.succ_mul]; omega
    _ ≤ H * W := Nat.mul_le_mul_right W hy
    _ = W * H := Nat.mul_comm H W

/-! ### The neighbours of a pixel stand before it (44_predictor.md rule R155) -/

theorem west_address_lt {W x y : Nat} (hx : x ≠ 0) : y * W + (x - 1) < y * W + x := by omega

theorem north_address_lt {W x y : Nat} (hx : x < W) (hy : y ≠ 0) : (y - 1) * W + x < y * W + x := by
  have hrow : (y - 1) * W < y * W := Nat.mul_lt_mul_of_pos_right (by omega) (Nat.zero_lt_of_lt hx)
  omega

theorem northWest_address_lt {W x y : Nat} (hxy : ¬ (x = 0 ∨ y = 0)) :
    (y - 1) * W + (x - 1) < y * W + x := by
  have hrow : (y - 1) * W ≤ y * W := Nat.mul_le_mul_right W (Nat.sub_le y 1)
  omega

/-! ### A pixel's residual reads its own sample and those before it -/

theorem sampleAt_of_isSome {m : Memory} {a : Nat} (h : (m.read a).isSome = true) :
    sampleAt m a = .ok (sample m a) := by
  obtain ⟨v, hv⟩ := Option.isSome_iff_exists.1 h
  rw [sampleAt, sample, hv, Option.getD_some]

theorem sampleAt_congr {m m' : Memory} {a : Nat} (h : m.read a = m'.read a) :
    sampleAt m a = sampleAt m' a := by
  rw [sampleAt, h, sampleAt]

/-- One neighbour: 0 where it is missing, and else the sample at its address. -/
def neighbourAt (m : Memory) (missing : Prop) [Decidable missing] (addr : Nat) : Except Nat Nat :=
  if missing then .ok 0 else sampleAt m addr

/-- The three neighbours are fetched one after the other. -/
theorem neighbours_eq_bind (m : Memory) (W x y : Nat) :
    neighbours m W x y =
      (neighbourAt m (x = 0) (y * W + (x - 1))).bind fun l =>
        (neighbourAt m (y = 0) ((y - 1) * W + x)).bind fun a =>
          (neighbourAt m (x = 0 ∨ y = 0) ((y - 1) * W + (x - 1))).bind fun c => .ok (l, a, c) := by
  unfold neighbours neighbourAt
  split <;> split <;> split <;> rfl

theorem neighbourAt_of_holds {missing : Prop} [Decidable missing] {m : Memory} {a : Nat}
    (h : ¬ missing → (m.read a).isSome = true) :
    neighbourAt m missing a = .ok (if missing then 0 else sample m a) := by
  rw [neighbourAt]
  split
  case isTrue => rfl
  case isFalse hthere => exact sampleAt_of_isSome (h hthere)

theorem neighbourAt_congr {missing : Prop} [Decidable missing] {m m' : Memory} {a : Nat}
    (h : ¬ missing → m.read a = m'.read a) : neighbourAt m missing a = neighbourAt m' missing a :=
  ite_congr rfl (fun _ => rfl) fun hthere => sampleAt_congr (h hthere)

section Pixel
variable {m m' : Memory} {W x y : Nat} (hx : x < W)
include hx

/-- Over a raster that holds every sample before the pixel, the neighbours are those of rule R155. -/
theorem neighbours_of_holds (h : rasterHolds m (y * W + x)) :
    ∃ l a c : Nat, neighbours m W x y = .ok (l, a, c) ∧ (l : Int) = westOf m W x y ∧
      (a : Int) = northOf m W x y ∧ (c : Int) = northWestOf m W x y := by
  refine ⟨_, _, _, ?fetch, (Nat.cast_ite ..), (Nat.cast_ite ..), (Nat.cast_ite ..)⟩
  case fetch =>
    rw [neighbours_eq_bind, neighbourAt_of_holds fun h0 => h _ (west_address_lt h0),
      neighbourAt_of_holds fun h0 => h _ (north_address_lt hx h0),
      neighbourAt_of_holds fun h0 => h _ (northWest_address_lt h0)]
    rfl

theorem neighbours_congr (h : ∀ a < y * W + x, m.read a = m'.read a) :
    neighbours m W x y = neighbours m' W x y := by
  simp only [neighbours_eq_bind]
  rw [neighbourAt_congr fun h0 => h _ (west_address_lt h0),
    neighbourAt_congr fun h0 => h _ (north_address_lt hx h0),
    neighbourAt_congr fun h0 => h _ (northWest_address_lt h0)]

theorem residualAt_of_holds (pred : Predictor) (h : rasterHolds m (y * W + x + 1)) :
    residualAt pred m W x y =
      .ok (residualOf (sample m (y * W + x)) (predictionAt pred m W x y)) := by
  obtain ⟨l, a, c, hfetch, hl, ha, hc⟩ := neighbours_of_holds hx fun a ha => h a (Nat.lt_succ_of_lt ha)
  rw [residualAt, hfetch, predictionAt, ← hl, ← ha, ← hc, sampleAt_of_isSome (h _ (Nat.lt_succ_self _))]
  rfl

theorem residualAt_congr (pred : Predictor) (h : ∀ a < y * W + x + 1, m.read a = m'.read a) :
    residualAt pred m W x y = residualAt pred m' W x y := by
  rw [residualAt, neighbours_congr hx fun a ha => h a (Nat.lt_succ_of_lt ha),
    sampleAt_congr (h _ (Nat.lt_succ_self _)), residualAt]

end Pixel

/-! ### Pass 1 of I.ENCODE (47_image_encode.md rule R198) -/

/-- The residual of the pixel at address `k`. -/
def imageResidual (pred : Predictor) (m : Memory) (W k : Nat) : Int :=
  residualOf (sample m k) (predictionAt pred m W (rasterPos W k).1 (rasterPos W k).2)

section Pass
variable {m m' : Memory} {W : Nat} (hW : 0 < W) (pred : Predictor)
include hW

theorem residualAt_rasterPos {k : Nat} (h : rasterHolds m (k + 1)) :
    residualAt pred m W (rasterPos W k).1 (rasterPos W k).2 = .ok (imageResidual pred m W k) := by
  rw [residualAt_of_holds (rasterPos_column_lt hW k) pred (by rwa [rasterPos_address]), rasterPos_address,
    imageResidual]

theorem residualPass_of_holds {count k : Nat} (h : rasterHolds m (k + count)) :
    residualPass pred m W count (rasterPos W k) =
      .ok ((List.range' k count).map (imageResidual pred m W)) := by
  induction count generalizing k with
  | zero => rfl
  | succ count ih =>
    have hfirst : rasterHolds m (k + 1) := fun a ha => h a (by omega)
    have hrest : rasterHolds m (k + 1 + count) := fun a ha => h a (by omega)
    rw [residualPass, residualAt_rasterPos hW pred hfirst, nextPos_rasterPos hW, ih hrest]
    rfl

theorem residualPass_congr {count k : Nat} (h : ∀ a < k + count, m.read a = m'.read a) :
    residualPass pred m W count (rasterPos W k) = residualPass pred m' W count (rasterPos W k) := by
  induction count generalizing k with
  | zero => rfl
  | succ count ih =>
    have hpixel : residualAt pred m W (rasterPos W k).1 (rasterPos W k).2 =
        residualAt pred m' W (rasterPos W k).1 (rasterPos W k).2 := by
      refine residualAt_congr (rasterPos_column_lt hW k) pred fun a ha => h a ?_
      rw [rasterPos_address] at ha
      omega
    rw [residualPass, hpixel, nextPos_rasterPos hW, ih fun a ha => h a (by omega), residualPass,
      nextPos_rasterPos hW]

end Pass

/-! ### The frame of an image (47_image_encode.md rules R196, R199 to R204) -/

/-- The residuals of an image of `n` pixels, in raster order. -/
def imageResiduals (pred : Predictor) (m : Memory) (W n : Nat) : List Int :=
  (List.range n).map (imageResidual pred m W)

theorem length_imageResiduals (pred : Predictor) (m : Memory) (W n : Nat) :
    (imageResiduals pred m W n).length = n := by
  rw [imageResiduals, List.length_map, List.length_range]

theorem getElem?_imageResiduals {W H x y : Nat} (pred : Predictor) (m : Memory) (hx : x < W)
    (hy : y < H) :
    (imageResiduals pred m W (W * H))[y * W + x]? =
      some (residualOf (sample m (y * W + x)) (predictionAt pred m W x y)) := by
  rw [imageResiduals, List.getElem?_map, List.getElem?_range (address_lt hx hy), Option.map_some,
    imageResidual, rasterPos_mul_add hx]

theorem encodeImage_of_holds {m : Memory} {W H : Nat} (hW : 0 < W) (pred : Predictor)
    (h : rasterHolds m (W * H)) :
    encodeImage pred m W H = .ok (frameBits W H pred (imageResiduals pred m W (W * H))) := by
  have hpass : residualPass pred m W (W * H) (0, 0) = .ok (imageResiduals pred m W (W * H)) := by
    rw [imageResiduals, List.range_eq_range', ← rasterPos_zero hW,
      residualPass_of_holds hW pred (by rwa [Nat.zero_add])]
  rw [encodeImage, hpass]
  rfl

theorem encodeImage_congr {m m' : Memory} {W H : Nat} (pred : Predictor)
    (h : ∀ a < W * H, m.read a = m'.read a) : encodeImage pred m W H = encodeImage pred m' W H := by
  rcases W.eq_zero_or_pos with rfl | hW
  · rw [encodeImage, encodeImage, Nat.zero_mul, residualPass, residualPass]
  · have hpass : residualPass pred m W (W * H) (0, 0) = residualPass pred m' W (W * H) (0, 0) := by
      rw [← rasterPos_zero hW,
        residualPass_congr hW pred (by rwa [Nat.zero_add])]
    rw [encodeImage, hpass, encodeImage]

/-- Settles O32: pass 1 gives the residual of every address, and the frame is written from them. -/
theorem iEncodeWritesFrame : Obligations.IEncodeWritesFrame := by
  intro s hv hdims hlen hb hholds
  have hencode := encodeImage_of_holds hdims.1 s.i.pred hholds
  refine ⟨_, execIEncode_of_encodeImage hv hb (shapeBad_eq_false_of_legal hdims hlen) hencode,
    ⟨_, length_imageResiduals .., fun x y hx hy => ?entry, rfl⟩, endImage_setBit_frame .ok _ s⟩
  case entry => exact getElem?_imageResiduals s.i.pred s.pix hx hy

/-- Settles O40: the frame is what `encodeImage` answers, and it reads the samples of the image only. -/
theorem frameDependsOnImageOnly : Obligations.FrameDependsOnImageOnly := by
  intro s s' t t' hpred hw hh hsamples he hok he' hok'
  refine Except.ok.inj (ε := Nat) ?_
  calc Except.ok t.bit = encodeImage s.i.pred s.pix s.i.opW s.i.opH :=
        (encodeImage_eq_ok_of_execIEncode he hok).symm
    _ = encodeImage s.i.pred s'.pix s.i.opW s.i.opH := encodeImage_congr s.i.pred hsamples
    _ = encodeImage s'.i.pred s'.pix s'.i.opW s'.i.opH := by rw [hpred, hw, hh]
    _ = .ok t'.bit := encodeImage_eq_ok_of_execIEncode he' hok'

end Sys2Proof.Machine
end

section
/-! PROOF. I.DECODE up to its body: the checks of the operands and the header, the outcome each of them gives,
and a header at the header reader (48_image_decode.md rules R215 to R218; 60_exceptions.md rule R240). -/

namespace Sys2Proof.Machine

/-! ### The header is read whole or not at all (48_image_decode.md rule R217) -/

theorem length_of_readHeader_eq_some {S : BitSeq} {hd : Header} (h : readHeader S = some hd) :
    64 ≤ S.length := by
  simp only [readHeader, Option.bind_eq_bind, Option.bind_eq_some_iff] at h
  obtain ⟨_, -, _, -, _, -, _, -, r, hr, -⟩ := h
  have hlast := (readBits_eq_some hr).2.length_le
  rw [length_bitsOf, List.length_drop] at hlast
  omega

theorem readHeader_eq_none_of_short {S : BitSeq} (h : S.length < 64) : readHeader S = none :=
  Option.eq_none_iff_forall_ne_some.2 fun _ hsome => h.not_ge (length_of_readHeader_eq_some hsome)

/-! ### The checks of I.DECODE in one value (60_exceptions.md rule R240) -/

theorem dimsBad_iff {W H : Nat} :
    dimsBad W H = true ↔ W = 0 ∨ H = 0 ∨ 65535 < W ∨ 65535 < H := by
  simp only [dimsBad, Bool.or_eq_true, decide_eq_true_eq, or_assoc]
  rfl

theorem dimsBad_eq_false_iff {s : State} : dimsBad s.i.opW s.i.opH = false ↔ dimsLegal s := by
  rw [Bool.eq_false_iff, Ne, dimsBad_iff]
  omega

/-- The header agrees with the operands and the predictor, and its reserved field is 0. -/
abbrev headerMatches (W H : Nat) (pred : Predictor) (hd : Header) : Prop :=
  hd.w = W ∧ hd.h = H ∧ hd.p = pred.code.toNat ∧ hd.r = 0

theorem code_le_five (pred : Predictor) : pred.code.toNat ≤ 5 := by cases pred <;> decide

/-- The four checks that report MALFORMED are one; the check that the id selects a predictor is part of the
check that it is the unit's. -/
theorem headerCheck_eq (W H : Nat) (pred : Predictor) (hd : Header) :
    headerCheck W H pred hd =
      if headerMatches W H pred hd then (if hd.m = 0 then .invalidParameter else .ok)
      else .malformed := by
  have hcode := code_le_five pred
  by_cases h : headerMatches W H pred hd
  · rw [if_pos h]
    obtain ⟨hw, hh, hp, hr⟩ := h
    simp [headerCheck, hw, hh, hp, hr, hcode.not_gt]
  · rw [if_neg h, headerCheck]
    split
    · rfl
    · next hdims =>
      split
      · rfl
      · split
        · rfl
        · next hid =>
          rw [if_pos ⟨rfl, fun hr => h ⟨by omega, by omega, not_not.1 hid, hr⟩⟩]

/-- What the checks of I.DECODE answer: the error of the first that fails, or the divisor of the body. -/
def frameVerdict (W H : Nat) (pred : Predictor) (S : BitSeq) : Except ErrCode Nat :=
  if dimsBad W H then .error .invalidShape
  else
    match readHeader S with
    | none => .error .malformed
    | some hd =>
      if headerMatches W H pred hd then
        if hd.m = 0 then .error .invalidParameter else .ok hd.m
      else .error .malformed

/-- The header of a frame for the operands and the predictor of a state, with the divisor `m`. -/
abbrev State.headerFor (s : State) (m : Nat) : Header :=
  { w := s.i.opW, h := s.i.opH, m := m, p := s.i.pred.code.toNat, r := 0 }

/-- The verdict on the operands, the predictor and the source of a state. -/
abbrev State.verdict (s : State) : Except ErrCode Nat := frameVerdict s.i.opW s.i.opH s.i.pred s.bit

/-- I.DECODE fails as the checks say, or runs its body under the divisor they give. -/
theorem execIDecode_cases {s : State} (hv : s.i.valid = true) :
    (∃ k, s.verdict = .error k ∧ k ≠ .ok ∧ execIDecode s = .next (failIDecode k s)) ∨
      ∃ gm, s.verdict = .ok gm ∧ execIDecode s = decodeBody gm s := by
  rw [execIDecode, requireI_of_valid hv, State.verdict, frameVerdict]
  split
  · exact .inl ⟨_, rfl, by decide, rfl⟩
  · cases readHeader s.bit with
    | none => exact .inl ⟨_, rfl, by decide, rfl⟩
    | some hd =>
      simp only [headerCheck_eq]
      split
      · split
        · exact .inl ⟨_, rfl, by decide, rfl⟩
        · exact .inr ⟨_, rfl, rfl⟩
      · exact .inl ⟨_, rfl, by decide, rfl⟩

theorem execIDecode_of_error {s : State} {k : ErrCode} (hv : s.i.valid = true)
    (h : s.verdict = .error k) : execIDecode s = .next (failIDecode k s) := by
  rcases execIDecode_cases hv with ⟨k', hk', -, hx⟩ | ⟨gm, hgm, -⟩
  · cases h.symm.trans hk'; exact hx
  · cases h.symm.trans hgm

theorem execIDecode_of_accepted {s : State} {gm : Nat} (hv : s.i.valid = true)
    (h : s.verdict = .ok gm) : execIDecode s = decodeBody gm s := by
  rcases execIDecode_cases hv with ⟨k, hk, -, -⟩ | ⟨gm', hgm', hx⟩
  · cases h.symm.trans hk
  · cases h.symm.trans hgm'; exact hx

theorem verdict_of_dimsBad {s : State} (h : dimsBad s.i.opW s.i.opH = true) :
    s.verdict = .error .invalidShape := if_pos h

/-- The dimensions are checked before anything else. -/
theorem dimsLegal_of_accepted {s : State} {gm : Nat} (h : s.verdict = .ok gm) : dimsLegal s := by
  refine dimsBad_eq_false_iff.1 (Bool.eq_false_iff.2 fun hbad => ?_)
  cases h.symm.trans (verdict_of_dimsBad hbad)

section Legal
variable {s : State} (hdims : dimsLegal s)
include hdims

theorem verdict_of_no_header (h : readHeader s.bit = none) : s.verdict = .error .malformed := by
  rw [State.verdict, frameVerdict, dimsBad_eq_false_iff.2 hdims, h]
  rfl

theorem verdict_of_header {hd : Header} (h : readHeader s.bit = some hd) :
    s.verdict =
      if headerMatches s.i.opW s.i.opH s.i.pred hd then
        if hd.m = 0 then .error .invalidParameter else .ok hd.m
      else .error .malformed := by
  rw [State.verdict, frameVerdict, dimsBad_eq_false_iff.2 hdims, h]
  rfl

/-- The header that I.ENCODE writes is accepted, whatever follows (48_image_decode.md rule R218). -/
theorem verdict_of_frame {m : Nat} {S : BitSeq} (h1 : 1 ≤ m) (hmax : m ≤ 65535)
    (hbit : s.bit = (s.headerFor m).toBits ++ S) : s.verdict = .ok m := by
  have hfit : headerFits (s.headerFor m) := by
    have := code_le_five s.i.pred
    dsimp only [headerFits]
    omega
  have hread := readHeader_toBits hfit S
  rw [← hbit] at hread
  rw [verdict_of_header hdims hread, if_pos ⟨rfl, rfl, rfl, rfl⟩, if_neg (Nat.ne_zero_of_lt h1)]

end Legal

/-! ### What an error in I.DECODE leaves unchanged (48_image_decode.md rule R222) -/

/-- Cells below an address are passed over by a read there. -/
theorem Memory.read_append_of_lt {m1 m2 : Memory} {a : Nat} (h : ∀ c ∈ m1, c.1 < a) :
    Memory.read (m1 ++ m2) a = Memory.read m2 a := by
  induction m1 with
  | nil => rfl
  | cons c m1 ih =>
    have hc : c.1 < a := h c List.mem_cons_self
    rw [List.cons_append, Memory.read, if_neg (by omega), if_neg (by omega)]
    exact ih fun d hd => h d (List.mem_cons_of_mem c hd)

theorem Memory.read_filter_of_le {n a : Nat} (m : Memory) (h : n ≤ a) :
    Memory.read (m.filter fun c => decide (n ≤ c.1)) a = m.read a := by
  induction m with
  | nil => rfl
  | cons c m ih =>
    rw [List.filter_cons]
    split
    · simp only [Memory.read, ih]
    · next hlow =>
      have hc : c.1 < n := by simpa using hlow
      rw [ih, Memory.read, if_neg (by omega), if_neg (by omega)]

theorem Memory.read_replaceBelow_of_le {n a : Nat} (B : List Byte) (m : Memory) (h : n ≤ a) :
    (m.replaceBelow n B).read a = m.read a := by
  rw [Memory.replaceBelow, Memory.read_append_of_lt fun c hc => ?below, Memory.read_filter_of_le m h]
  case below =>
    have hlt := (Memory.le_of_mem_cellsFrom hc).2
    have hlen := List.length_take_le n B
    omega

theorem iDecodeEnds_of_failIDecode {s : State} {k : ErrCode}
    (h : exec .iDecode s = .next (failIDecode k s)) : iDecodeEnds k s :=
  ⟨_, h, rfl, rfl, ⟨rfl, rfl⟩, ⟨rfl, rfl, rfl, rfl⟩, ⟨rfl, fun _ => rfl⟩, ⟨rfl, rfl⟩,
    fun _ ha => Memory.read_replaceBelow_of_le _ s.pix ha⟩

theorem iDecodeEnds_of_verdict {s : State} {k : ErrCode} (hv : s.i.valid = true)
    (h : s.verdict = .error k) : iDecodeEnds k s :=
  iDecodeEnds_of_failIDecode (execIDecode_of_error hv h)

/-- Settles O36. -/
theorem iDecodeInvalidShape : Obligations.IDecodeInvalidShape := fun _ hv hdims =>
  iDecodeEnds_of_verdict hv (verdict_of_dimsBad (dimsBad_iff.2 hdims))

/-- Settles O37. -/
theorem iDecodeHeaderChecks : Obligations.IDecodeHeaderChecks := by
  refine fun s hv hdims => ⟨fun hshort => ?short, fun hd S hfit hbit => ?header⟩
  case short =>
    exact iDecodeEnds_of_verdict hv (verdict_of_no_header hdims (readHeader_eq_none_of_short hshort))
  case header =>
    have hread : readHeader s.bit = some hd := hbit ▸ readHeader_toBits hfit S
    have hverdict := verdict_of_header hdims hread
    refine ⟨fun hbad => iDecodeEnds_of_verdict hv ?_, fun hw hh hp hr hm => iDecodeEnds_of_verdict hv ?_⟩
    · have hmis : ¬ headerMatches s.i.opW s.i.opH s.i.pred hd := by
        have := code_le_five s.i.pred
        unfold headerMatches
        omega
      rw [hverdict, if_neg hmis]
    · rw [hverdict, if_pos ⟨hw, hh, hp, hr⟩, if_pos hm]

/-! ### A header at the header reader -/

theorem onlyIOutcomeChanged_deliver (k : ErrCode) (fr : Transients) (s : State) :
    onlyIOutcomeChanged s ((s.setFr fr).deliver .iUnit k) := by
  simp [onlyIOutcomeChanged, iConfigKept, iOperandsKept, bitsKept, rasterKept, ownKept]

theorem toNat_eq_zero_iff {n : Nat} {v : BitVec n} : v.toNat = 0 ↔ v = 0 := BitVec.toNat_inj (y := 0)

/-- The fields of a header word as numbers. -/
abbrev headerOfWord (w h m : BitVec 16) (p : BitVec 4) (r : BitVec 12) : Header :=
  { w := w.toNat, h := h.toNat, m := m.toNat, p := p.toNat, r := r.toNat }

theorem headerMatches_headerOfWord {W H : Nat} {pred : Predictor} {w h m : BitVec 16} {p : BitVec 4}
    {r : BitVec 12} :
    headerMatches W H pred (headerOfWord w h m p r) ↔
      w.toNat = W ∧ h.toNat = H ∧ p = pred.code ∧ r = 0 := by
  simp only [headerMatches, BitVec.toNat_inj, toNat_eq_zero_iff]

section HeaderWord
variable {s : State} {w h m : BitVec 16} {p : BitVec 4} {r : BitVec 12} (hv : s.i.valid = true)
  (hdims : dimsLegal s)
include hv hdims

theorem execFrameHeader_of_ok
    (hk : headerCheck s.i.opW s.i.opH s.i.pred (headerOfWord w h m p r) = .ok) :
    execFrameHeader w h m p r s = .next ((s.setFr (s.fr.startFrame w h m)).deliver .iUnit .ok) := by
  rw [execFrameHeader, requireI_of_valid hv, dimsBad_eq_false_iff.2 hdims, hk]
  rfl

theorem execFrameHeader_of_error {k : ErrCode} (hne : k ≠ .ok)
    (hk : headerCheck s.i.opW s.i.opH s.i.pred (headerOfWord w h m p r) = k) :
    execFrameHeader w h m p r s = .next (s.deliver .iUnit k) := by
  rw [execFrameHeader, requireI_of_valid hv, dimsBad_eq_false_iff.2 hdims, hk]
  cases k with
  | ok => exact absurd rfl hne
  | invalidParameter | invalidShape | malformed => rfl

end HeaderWord

/-- A divisor of a header fits G.B and G.T as one of G.CONSTRUCT does. -/
theorem Transients.startFrame_divisor {m : BitVec 16} (hm : m ≠ 0) (w h : BitVec 16) (fr : Transients) :
    (fr.startFrame w h m).gb.toNat = clog2 m.toNat ∧
      (fr.startFrame w h m).gt.toNat + m.toNat = 2 ^ clog2 m.toNat := by
  have h1 : 1 ≤ m.toNat := Nat.one_le_iff_ne_zero.2 fun h0 => hm (toNat_eq_zero_iff.1 h0)
  exact (GUnit.reset.toNat_writeDivisor h1 (Nat.le_of_lt_succ m.isLt)).2

/-- Settles O46. -/
theorem headerWord : Obligations.HeaderWord := by
  intro s w h m p r hv hdims
  have hcheck := headerCheck_eq s.i.opW s.i.opH s.i.pred (headerOfWord w h m p r)
  refine ⟨fun hw hh hp hr hm => ?accepted, fun hw hh hp hr hm => ?zero, fun hmis => ?mismatch⟩
  case accepted =>
    rw [if_pos (headerMatches_headerOfWord.2 ⟨hw, hh, hp, hr⟩),
      if_neg fun h0 => hm (toNat_eq_zero_iff.1 h0)] at hcheck
    obtain ⟨hB, hT⟩ := s.fr.startFrame_divisor hm w h
    exact ⟨_, execFrameHeader_of_ok hv hdims hcheck, rfl, rfl, rfl, hB, hT, rfl, rfl, rfl, rfl, rfl, rfl,
      rfl, rfl, rfl, onlyIOutcomeChanged_deliver .ok _ s⟩
  case zero =>
    rw [if_pos (headerMatches_headerOfWord.2 ⟨hw, hh, hp, hr⟩),
      if_pos (toNat_eq_zero_iff.2 hm)] at hcheck
    exact ⟨_, execFrameHeader_of_error hv hdims (by decide) hcheck, rfl, rfl,
      onlyIOutcomeChanged_deliver _ s.fr s⟩
  case mismatch =>
    rw [if_neg fun hmatch => ?_] at hcheck
    · exact ⟨_, execFrameHeader_of_error hv hdims (by decide) hcheck, rfl, rfl,
        onlyIOutcomeChanged_deliver _ s.fr s⟩
    · obtain ⟨hw, hh, hp, hr⟩ := headerMatches_headerOfWord.1 hmatch
      rcases hmis with h1 | h1 | h1 | h1 <;> contradiction

end Sys2Proof.Machine
end

section
/-! PROOF. The pixel loop of I.DECODE: one turn, the loop over the codewords of residuals, the samples it
stores, and the round trip with I.ENCODE (48_image_decode.md rules R219 to R226). -/

namespace Sys2Proof.Machine

/-! ### What a prediction reads (44_predictor.md rule R155) -/

theorem sample_congr {m m' : Memory} {a : Nat} (h : m.read a = m'.read a) : sample m a = sample m' a := by
  rw [sample, h, sample]

theorem predictionAt_congr {m m' : Memory} {W x y : Nat} (pred : Predictor) (hx : x < W)
    (h : ∀ a < y * W + x, m.read a = m'.read a) :
    predictionAt pred m W x y = predictionAt pred m' W x y := by
  have hwest : westOf m W x y = westOf m' W x y :=
    ite_congr rfl (fun _ => rfl) fun h0 => congrArg _ (sample_congr (h _ (west_address_lt h0)))
  have hnorth : northOf m W x y = northOf m' W x y :=
    ite_congr rfl (fun _ => rfl) fun h0 => congrArg _ (sample_congr (h _ (north_address_lt hx h0)))
  have hnorthWest : northWestOf m W x y = northWestOf m' W x y :=
    ite_congr rfl (fun _ => rfl) fun h0 => congrArg _ (sample_congr (h _ (northWest_address_lt h0)))
  rw [predictionAt, hwest, hnorth, hnorthWest, predictionAt]

/-- The prediction for the pixel at address `k`. -/
def imagePrediction (pred : Predictor) (m : Memory) (W k : Nat) : Int :=
  predictionAt pred m W (rasterPos W k).1 (rasterPos W k).2

theorem imagePrediction_congr {m m' : Memory} {W k : Nat} (pred : Predictor) (hW : 0 < W)
    (h : ∀ a < k, m.read a = m'.read a) : imagePrediction pred m W k = imagePrediction pred m' W k :=
  predictionAt_congr pred (rasterPos_column_lt hW k) fun a ha => h a (rasterPos_address W k ▸ ha)

theorem imagePrediction_mul_add {W x : Nat} (pred : Predictor) (m : Memory) (hx : x < W) (y : Nat) :
    imagePrediction pred m W (y * W + x) = predictionAt pred m W x y := by
  rw [imagePrediction, rasterPos_mul_add hx]

/-! ### One turn of the loop (48_image_decode.md rule R219) -/

theorem rasterHolds_write_succ {m : Memory} {k : Nat} (h : rasterHolds m k) (v : Byte) :
    rasterHolds (m.write k v) (k + 1) := by
  intro a ha
  rcases Nat.lt_succ_iff_lt_or_eq.1 ha with hlt | rfl
  · rw [Memory.read_write_other m v hlt.ne]
    exact h a hlt
  · rw [Memory.read_write_same]
    rfl

/-- Rasters that agree below `k` agree below `k + 1` when the same sample is stored there. -/
theorem read_write_congr_succ {m m' : Memory} {k : Nat} (h : ∀ a < k, m.read a = m'.read a) (v : Byte) :
    ∀ a < k + 1, (m.write k v).read a = (m'.write k v).read a := by
  intro a ha
  rcases Nat.lt_succ_iff_lt_or_eq.1 ha with hlt | rfl
  · rw [Memory.read_write_other m v hlt.ne, Memory.read_write_other m' v hlt.ne, h a hlt]
  · rw [Memory.read_write_same, Memory.read_write_same]

section Turn
variable {pred : Predictor} {S : BitSeq} {W gm k cur : Nat} {m : Memory} (hW : 0 < W)
  (hm : rasterHolds m k)
include hW hm

/-- The neighbours of the pixel are there. -/
theorem neighbours_rasterPos :
    ∃ l a c : Nat, neighbours m W (rasterPos W k).1 (rasterPos W k).2 = .ok (l, a, c) ∧
      predict pred l a c = imagePrediction pred m W k := by
  obtain ⟨l, a, c, hfetch, hl, ha, hc⟩ :=
    neighbours_of_holds (rasterPos_column_lt hW k) ((rasterPos_address W k).symm ▸ hm)
  exact ⟨l, a, c, hfetch, by rw [hl, ha, hc, imagePrediction, predictionAt]⟩

theorem pixelStep_of_none (h : decodeSym S cur gm giMode = none) :
    pixelStep pred S W gm (rasterPos W k) cur m = .truncated := by
  obtain ⟨l, a, c, hfetch, -⟩ := neighbours_rasterPos (pred := pred) hW hm
  simp only [pixelStep, hfetch, h]

theorem pixelStep_of_some {r : Int} {n : Nat} (h : decodeSym S cur gm giMode = some (r, n)) :
    pixelStep pred S W gm (rasterPos W k) cur m =
      .done (cur + n) (m.write k (reconstruct (imagePrediction pred m W k) r)) := by
  obtain ⟨l, a, c, hfetch, hp⟩ := neighbours_rasterPos (pred := pred) hW hm
  simp only [pixelStep, hfetch, h, hp, rasterPos_address]

theorem decodePass_of_none {count : Nat} (h : decodeSym S cur gm giMode = none) :
    decodePass pred S W gm (count + 1) (rasterPos W k) cur m = .truncated := by
  rw [decodePass, pixelStep_of_none hW hm h]

theorem decodePass_of_some {count n : Nat} {r : Int} (h : decodeSym S cur gm giMode = some (r, n)) :
    decodePass pred S W gm (count + 1) (rasterPos W k) cur m =
      decodePass pred S W gm count (rasterPos W (k + 1)) (cur + n)
        (m.write k (reconstruct (imagePrediction pred m W k) r)) := by
  rw [decodePass, pixelStep_of_some hW hm h, nextPos_rasterPos hW]

/-- The loop ends alike, at the same cursor and with the same samples, on two rasters that agree on the
samples stored before. -/
theorem decodePass_congr {count : Nat} {m' : Memory} (h : ∀ a < k, m.read a = m'.read a) :
    (decodePass pred S W gm count (rasterPos W k) cur m = .truncated ∧
        decodePass pred S W gm count (rasterPos W k) cur m' = .truncated) ∨
      ∃ c o o', decodePass pred S W gm count (rasterPos W k) cur m = .done c o ∧
        decodePass pred S W gm count (rasterPos W k) cur m' = .done c o' ∧
        ∀ a < k + count, o.read a = o'.read a := by
  induction count generalizing k cur m m' with
  | zero => exact .inr ⟨cur, m, m', rfl, rfl, h⟩
  | succ count ih =>
    have hm' : rasterHolds m' k := fun a ha => h a ha ▸ hm a ha
    cases hsym : decodeSym S cur gm giMode with
    | none => exact .inl ⟨decodePass_of_none hW hm hsym, decodePass_of_none hW hm' hsym⟩
    | some rn =>
      rw [decodePass_of_some hW hm hsym, decodePass_of_some hW hm' hsym,
        imagePrediction_congr pred hW h, Nat.add_comm count, ← Nat.add_assoc]
      exact ih (rasterHolds_write_succ hm _) (read_write_congr_succ h _)

end Turn

/-! ### The samples that residuals give (45_residual.md rule R176) -/

/-- The raster after residuals `rs` have been added, from address `k` on, to the predictions from what has
been stored. -/
def storeResiduals (pred : Predictor) (W : Nat) : Nat → List Int → Memory → Memory
  | _, [], m => m
  | k, r :: rs, m =>
    storeResiduals pred W (k + 1) rs (m.write k (reconstruct (imagePrediction pred m W k) r))

theorem read_storeResiduals_outside {pred : Predictor} {W k a : Nat} {rs : List Int} {m : Memory}
    (h : a < k ∨ k + rs.length ≤ a) : (storeResiduals pred W k rs m).read a = m.read a := by
  induction rs generalizing k m with
  | nil => rfl
  | cons r rs ih =>
    rw [List.length_cons] at h
    rw [storeResiduals, ih (by omega), Memory.read_write_other m _ (by omega)]

theorem rasterHolds_storeResiduals {pred : Predictor} {W k : Nat} {rs : List Int} {m : Memory}
    (hm : rasterHolds m k) : rasterHolds (storeResiduals pred W k rs m) (k + rs.length) := by
  induction rs generalizing k m with
  | nil => exact hm
  | cons r rs ih =>
    rw [storeResiduals, List.length_cons, Nat.add_comm rs.length, ← Nat.add_assoc]
    exact ih (rasterHolds_write_succ hm _)

/-- Each sample is reconstructed from the raster as it is in the end, whose earlier samples no later turn
changes. -/
theorem read_storeResiduals {pred : Predictor} {W k j : Nat} {rs : List Int} {m : Memory} {r : Int}
    (hW : 0 < W) (hj : rs[j]? = some r) :
    (storeResiduals pred W k rs m).read (k + j) =
      some (reconstruct (imagePrediction pred (storeResiduals pred W k rs m) W (k + j)) r) := by
  induction rs generalizing k j m with
  | nil => cases hj
  | cons r' rs ih =>
    cases j with
    | zero =>
      cases hj
      have hkept : ∀ a < k, (storeResiduals pred W k (r :: rs) m).read a = m.read a :=
        fun a ha => read_storeResiduals_outside (.inl ha)
      rw [Nat.add_zero, imagePrediction_congr pred hW hkept, storeResiduals,
        read_storeResiduals_outside (.inl (Nat.lt_succ_self k)), Memory.read_write_same]
    | succ j =>
      rw [← Nat.add_assoc, Nat.add_right_comm, storeResiduals]
      exact ih hj

/-! ### The loop over codewords (48_image_decode.md rules R219, R221) -/

/-- From a cursor where the codewords of `rs` stand, the loop stores `rs` and goes on behind them. -/
theorem decodePass_residualBits {pred : Predictor} {W gm count k : Nat} {rs : List Int} {m : Memory}
    {S pre tail : BitSeq} (hgm : 1 ≤ gm) (hW : 0 < W) (hm : rasterHolds m k)
    (hS : S = pre ++ (residualBits gm rs ++ tail)) :
    decodePass pred S W gm (rs.length + count) (rasterPos W k) pre.length m =
      decodePass pred S W gm count (rasterPos W (k + rs.length)) (pre ++ residualBits gm rs).length
        (storeResiduals pred W k rs m) := by
  induction rs generalizing pre k m with
  | nil => simp [residualBits, storeResiduals]
  | cons r rs ih =>
    have hcons : residualBits gm (r :: rs) = encodeSym r gm .interleaving ++ residualBits gm rs :=
      List.flatMap_cons
    rw [hcons] at hS ⊢
    have hsym : decodeSym S pre.length gm giMode = some (r, (encodeSym r gm .interleaving).length) := by
      rw [hS, List.append_assoc, ← List.append_assoc pre]
      exact decodeSym_encodeSym hgm r .interleaving pre _
    have hrest : S = pre ++ encodeSym r gm .interleaving ++ (residualBits gm rs ++ tail) := by
      rw [hS]; simp only [List.append_assoc]
    rw [List.length_cons, Nat.add_right_comm, decodePass_of_some hW hm hsym, ← List.length_append,
      ih (rasterHolds_write_succ hm _) hrest, storeResiduals, ← List.append_assoc, Nat.add_assoc k,
      Nat.add_comm 1]

theorem rasterHolds_zero (m : Memory) : rasterHolds m 0 := fun _ ha => absurd ha (Nat.not_lt_zero _)

/-- The loop from the first pixel, with nothing asked of the raster. -/
theorem decodePass_frame {pred : Predictor} {W gm : Nat} (count : Nat) {rs : List Int} (m : Memory)
    {S pre tail : BitSeq} (hgm : 1 ≤ gm) (hW : 0 < W) (hpre : pre.length = 64)
    (hS : S = pre ++ (residualBits gm rs ++ tail)) :
    decodePass pred S W gm (rs.length + count) (0, 0) 64 m =
      decodePass pred S W gm count (rasterPos W rs.length) (pre ++ residualBits gm rs).length
        (storeResiduals pred W 0 rs m) := by
  have hpass := decodePass_residualBits (pred := pred) (count := count) hgm hW (rasterHolds_zero m) hS
  rwa [rasterPos_zero hW, Nat.zero_add, hpre] at hpass

/-- As many codewords as pixels. -/
theorem decodePass_frame_done {pred : Predictor} {W gm count : Nat} {rs : List Int} (m : Memory)
    {S pre tail : BitSeq} (hgm : 1 ≤ gm) (hW : 0 < W) (hpre : pre.length = 64)
    (hS : S = pre ++ (residualBits gm rs ++ tail)) (hlen : rs.length = count) :
    decodePass pred S W gm count (0, 0) 64 m =
      .done (pre ++ residualBits gm rs).length (storeResiduals pred W 0 rs m) := by
  have hpass := decodePass_frame (pred := pred) 0 m hgm hW hpre hS
  rwa [Nat.add_zero, hlen] at hpass

/-- Fewer codewords than pixels, and no codeword where the next should stand. -/
theorem decodePass_frame_truncated {pred : Predictor} {W gm count : Nat} {rs : List Int} (m : Memory)
    {S pre tail : BitSeq} (hgm : 1 ≤ gm) (hW : 0 < W) (hpre : pre.length = 64)
    (hS : S = pre ++ (residualBits gm rs ++ tail)) (hlen : rs.length < count)
    (hcut : decodeSym S (pre ++ residualBits gm rs).length gm giMode = none) :
    decodePass pred S W gm count (0, 0) 64 m = .truncated := by
  obtain ⟨rest, rfl⟩ := Nat.exists_eq_add_of_lt hlen
  have hholds := rasterHolds_storeResiduals (pred := pred) (W := W) (rs := rs) (rasterHolds_zero m)
  rw [Nat.zero_add] at hholds
  rw [Nat.add_assoc, decodePass_frame (rest + 1) m hgm hW hpre hS, decodePass_of_none hW hholds hcut]

/-- Settles O35. -/
theorem cursorEndsAtFrameEnd : Obligations.CursorEndsAtFrameEnd :=
  fun _ _ _ _ _ _ _ raster hW hm hlen hheader =>
    ⟨_, decodePass_frame_done raster hm hW hheader rfl hlen⟩

/-! ### I.DECODE of a frame -/

section Accepted
variable {s : State} {gm : Nat} (hv : s.i.valid = true) (hgm : s.verdict = .ok gm)
include hv hgm

theorem exec_iDecode_of_done {c : Nat} {o : Memory}
    (h : decodePass s.i.pred s.bit s.i.opW gm (s.i.opW * s.i.opH) (0, 0) 64 s.pix = .done c o) :
    exec .iDecode s = .next (endImage .ok (s.setPix o)) := by
  refine (execIDecode_of_accepted hv hgm).trans ?_
  rw [decodeBody, h]

theorem exec_iDecode_of_truncated
    (h : decodePass s.i.pred s.bit s.i.opW gm (s.i.opW * s.i.opH) (0, 0) 64 s.pix = .truncated) :
    exec .iDecode s = .next (failIDecode .malformed s) := by
  refine (execIDecode_of_accepted hv hgm).trans ?_
  rw [decodeBody, h]

end Accepted

theorem endImage_setPix_frame (k : ErrCode) (m : Memory) (s : State) :
    (endImage k (s.setPix m)).i.err = k ∧ (endImage k (s.setPix m)).g = s.g ∧
      iConfigKept s (endImage k (s.setPix m)) ∧ iOperandsKept s (endImage k (s.setPix m)) ∧
      bitsKept s (endImage k (s.setPix m)) ∧ ownKept s (endImage k (s.setPix m)) :=
  ⟨rfl, rfl, ⟨rfl, rfl⟩, ⟨rfl, rfl, rfl, rfl⟩, ⟨rfl, fun _ => rfl⟩, rfl, rfl⟩

/-- Settles O34. -/
theorem iDecodeReconstructs : Obligations.IDecodeReconstructs := by
  intro s m rs tail hv hdims h1 hmax hlen hbit
  have hpass := decodePass_frame_done (pred := s.i.pred) s.pix h1 hdims.1 (Header.length_toBits _) hbit hlen
  refine ⟨_, exec_iDecode_of_done hv (verdict_of_frame hdims h1 hmax hbit) hpass,
    fun x y hx hy => ?samples, fun a ha => ?beyond, endImage_setPix_frame .ok _ s⟩
  case samples =>
    have hget := List.getElem?_eq_getElem (hlen ▸ address_lt hx hy : y * s.i.opW + x < rs.length)
    have hread := read_storeResiduals (pred := s.i.pred) (k := 0) (m := s.pix) hdims.1 hget
    rw [Nat.zero_add, imagePrediction_mul_add _ _ hx] at hread
    exact ⟨_, hget, hread⟩
  case beyond => exact read_storeResiduals_outside (.inr (by omega))

/-- Settles O38. -/
theorem iDecodeTruncatedBody : Obligations.IDecodeTruncatedBody := by
  intro s m n rs cut hv hdims h1 hmax hlen hpre hcut hbit
  have hdrop : s.bit.drop ((s.headerFor m).toBits ++ residualBits m rs).length = cut := by
    rw [hbit, ← List.append_assoc, List.drop_left]
  have hsym : decodeSym s.bit ((s.headerFor m).toBits ++ residualBits m rs).length m giMode = none := by
    rw [decodeSym, readSymbol_eq_none_of_cut h1 (hdrop.symm ▸ hpre) (hdrop.symm ▸ hcut)]
  exact iDecodeEnds_of_failIDecode (exec_iDecode_of_truncated hv (verdict_of_frame hdims h1 hmax hbit)
    (decodePass_frame_truncated s.pix h1 hdims.1 (Header.length_toBits _) hbit hlen hsym))

/-! ### The samples depend on the frame only (48_image_decode.md rule R226) -/

/-- Settles O41: the checks give both states one verdict, and an accepted body is decoded by two runs of the
pixel loop that differ in the raster they start from. -/
theorem imageDependsOnFrameOnly : Obligations.ImageDependsOnFrameOnly := by
  intro s s' hv hv' hpred hw hh hbit
  have hverdict : s'.verdict = s.verdict := by rw [State.verdict, ← hpred, ← hw, ← hh, ← hbit]
  rcases execIDecode_cases hv with ⟨k, hk, hne, hx⟩ | ⟨gm, hgm, -⟩
  · exact ⟨_, _, hx, execIDecode_of_error hv' (hverdict.trans hk), rfl, fun hok => absurd hok hne⟩
  · have hW : 0 < s.i.opW := (dimsLegal_of_accepted hgm).1
    have hruns := decodePass_congr (pred := s.i.pred) (S := s.bit) (gm := gm) (cur := 64)
      (count := s.i.opW * s.i.opH) hW (rasterHolds_zero s.pix) (m' := s'.pix)
      fun a ha => absurd ha a.not_lt_zero
    rw [rasterPos_zero hW, Nat.zero_add] at hruns
    rcases hruns with ⟨hp, hp'⟩ | ⟨c, o, o', hp, hp', hread⟩ <;> rw [hpred, hw, hh, hbit] at hp'
    · exact ⟨_, _, exec_iDecode_of_truncated hv hgm hp,
        exec_iDecode_of_truncated hv' (hverdict.trans hgm) hp', rfl, nofun⟩
    · exact ⟨_, _, exec_iDecode_of_done hv hgm hp, exec_iDecode_of_done hv' (hverdict.trans hgm) hp',
        rfl, fun _ => hread⟩

end Sys2Proof.Machine
end

section
/-! PROOF. The host failures of I.ENCODE (93_implementation_defined.md U12, U17) and the image round trip
(48_image_decode.md rule R224). -/

namespace Sys2Proof.Machine

/-! ### I.ENCODE stops at the first sample that is missing -/

theorem exists_first_missing {m : Memory} {n : Nat} (h : ∃ a < n, m.read a = none) :
    ∃ a < n, m.read a = none ∧ rasterHolds m a := by
  obtain ⟨hlt, hnone⟩ := Nat.find_spec h
  refine ⟨Nat.find h, hlt, hnone, fun b hb => Option.ne_none_iff_isSome.1 fun hb' => ?_⟩
  exact Nat.find_min h hb ⟨hb.trans hlt, hb'⟩

/-- The neighbours of the missing sample are there; the sample itself is not. -/
theorem residualAt_of_missing {m : Memory} {W k : Nat} (hW : 0 < W) (pred : Predictor)
    (hm : rasterHolds m k) (hnone : m.read k = none) :
    residualAt pred m W (rasterPos W k).1 (rasterPos W k).2 = .error k := by
  obtain ⟨l, a, c, hfetch, -⟩ :=
    neighbours_of_holds (rasterPos_column_lt hW k) ((rasterPos_address W k).symm ▸ hm)
  rw [residualAt, hfetch, rasterPos_address, sampleAt, hnone]
  rfl

theorem residualPass_of_missing {m : Memory} {W count k a : Nat} (hW : 0 < W) (pred : Predictor)
    (hm : rasterHolds m a) (hnone : m.read a = none) (hka : k ≤ a) (hend : a < k + count) :
    residualPass pred m W count (rasterPos W k) = .error a := by
  induction count generalizing k with
  | zero => omega
  | succ count ih =>
    rw [residualPass]
    rcases hka.eq_or_lt with rfl | hlt
    · rw [residualAt_of_missing hW pred hm hnone]
      rfl
    · rw [residualAt_rasterPos hW pred fun b hb => hm b (by omega), nextPos_rasterPos hW,
        ih hlt (by omega)]
      rfl

theorem encodeImage_of_missing {m : Memory} {W H a : Nat} (hW : 0 < W) (pred : Predictor)
    (hm : rasterHolds m a) (hnone : m.read a = none) (ha : a < W * H) :
    encodeImage pred m W H = .error a := by
  have hpass := residualPass_of_missing (count := W * H) hW pred hm hnone a.zero_le (by omega)
  rw [rasterPos_zero hW] at hpass
  rw [encodeImage, hpass]
  rfl

/-- An image that has been encoded holds all its samples. -/
theorem rasterHolds_of_encodeImage {m : Memory} {W H : Nat} {pred : Predictor} {F : BitSeq} (hW : 0 < W)
    (h : encodeImage pred m W H = .ok F) : rasterHolds m (W * H) := by
  intro a ha
  refine Option.ne_none_iff_isSome.1 fun hnone => ?_
  obtain ⟨b, hb, hbnone, hholds⟩ := exists_first_missing ⟨a, ha, hnone⟩
  cases h.symm.trans (encodeImage_of_missing hW pred hholds hbnone hb)

theorem execIEncode_of_missing {s : State} {a : Nat} (hv : s.i.valid = true) (hb : s.bit = [])
    (hs : shapeBad s = false) (h : encodeImage s.i.pred s.pix s.i.opW s.i.opH = .error a) :
    execIEncode s = .fault (.sampleAbsent a) := by
  rw [execIEncode, requireI_of_valid hv, if_neg (not_not.2 hb), if_neg (ne_true_of_eq_false hs), h]

/-- Settles O33: with a sample missing, pass 1 stops at the first that is. -/
theorem iEncodeHostFailures : Obligations.IEncodeHostFailures := by
  refine fun s hv => ⟨execIEncode_of_sink hv, fun hb hdims hlen hmissing => ?_⟩
  obtain ⟨a, ha, hnone, hholds⟩ := exists_first_missing hmissing
  exact ⟨a, ha, hnone, execIEncode_of_missing hv hb (shapeBad_eq_false_of_legal hdims hlen)
    (encodeImage_of_missing hdims.1 s.i.pred hholds hnone ha)⟩

/-! ### The divisor of a frame fits its header field (46_param_select.md rule R188) -/

theorem sample_le (m : Memory) (a : Nat) : sample m a ≤ 255 := Nat.le_of_lt_succ (BitVec.isLt _)

/-- A neighbour is a byte, or 0 where it is missing. -/
theorem neighbour_bounds {missing : Prop} [Decidable missing] (m : Memory) (a : Nat) :
    0 ≤ (if missing then 0 else sample m a : Int) ∧ (if missing then 0 else sample m a : Int) ≤ 255 := by
  have := sample_le m a
  split <;> omega

/-- The residuals of every predictor lie in the widest of the ranges of rule R164. -/
theorem exists_residualRange (pred : Predictor) :
    ∃ lo hi, -510 ≤ lo ∧ hi ≤ 510 ∧ residualRange (predict pred) lo hi := by
  obtain ⟨⟨-, hprev⟩, ⟨-, habove⟩, ⟨-, haverage⟩, ⟨-, hpaeth⟩, ⟨-, hjpegLs⟩, -, hgradient⟩ :=
    predictorRanges
  cases pred with
  | prev => exact ⟨-255, 255, by decide, by decide, hprev⟩
  | above => exact ⟨-255, 255, by decide, by decide, habove⟩
  | average => exact ⟨-255, 255, by decide, by decide, haverage⟩
  | paeth => exact ⟨-255, 255, by decide, by decide, hpaeth⟩
  | jpegLs => exact ⟨-510, 510, by decide, by decide, hjpegLs⟩
  | gradient => exact ⟨-382, 382, by decide, by decide, hgradient⟩

theorem natAbs_residualOf_predictionAt_le (pred : Predictor) (m : Memory) (W a x y : Nat) :
    (residualOf (sample m a) (predictionAt pred m W x y)).natAbs ≤ 510 := by
  obtain ⟨lo, hi, hlo, hhi, -, hrange⟩ := exists_residualRange pred
  obtain ⟨hL, hL'⟩ : 0 ≤ westOf m W x y ∧ westOf m W x y ≤ 255 := neighbour_bounds m _
  obtain ⟨hA, hA'⟩ : 0 ≤ northOf m W x y ∧ northOf m W x y ≤ 255 := neighbour_bounds m _
  obtain ⟨hC, hC'⟩ : 0 ≤ northWestOf m W x y ∧ northWestOf m W x y ≤ 255 := neighbour_bounds m _
  have hres := hrange (sample m a) _ _ _ (sample_le m a) hL hL' hA hA' hC hC'
  rw [predictionAt]
  omega

theorem selectM_imageResiduals_le (pred : Predictor) (m : Memory) (W n : Nat) :
    selectM (imageResiduals pred m W n) ≤ 354 := by
  refine (selectMRange _).2.2.2 fun r hr => ?_
  obtain ⟨k, -, rfl⟩ := List.mem_map.1 hr
  exact natAbs_residualOf_predictionAt_le pred m W k _ _

/-! ### The round trip (48_image_decode.md rule R224) -/

/-- What an I.ENCODE that ends with OK found and wrote. -/
theorem frame_of_execIEncode {s t : State} (h : execIEncode s = .next t) (hok : t.i.err = .ok) :
    dimsLegal s ∧ rasterHolds s.pix (s.i.opW * s.i.opH) ∧
      t.bit = frameBits s.i.opW s.i.opH s.i.pred
        (imageResiduals s.i.pred s.pix s.i.opW (s.i.opW * s.i.opH)) := by
  have hF := encodeImage_eq_ok_of_execIEncode h hok
  obtain ⟨-, -, ⟨-, rfl⟩ | ⟨hshape, -⟩⟩ := execIEncode_eq_next h
  · cases hok
  · have hdims : dimsLegal s := by
      rw [Bool.eq_false_iff, Ne, shapeBad_iff] at hshape
      omega
    have hholds := rasterHolds_of_encodeImage hdims.1 hF
    exact ⟨hdims, hholds, Except.ok.inj (hF.symm.trans (encodeImage_of_holds hdims.1 _ hholds))⟩

/-- A raster that is reconstructed from the residuals of an image is that image: the prediction of a pixel
reads the samples before it, and residual and reconstruction undo each other. -/
theorem read_eq_of_reconstructs {pred : Predictor} {m out : Memory} {W H : Nat}
    (hholds : rasterHolds m (W * H))
    (hout : ∀ x y, x < W → y < H → out.read (y * W + x) =
      some (reconstruct (predictionAt pred out W x y)
        (residualOf (sample m (y * W + x)) (predictionAt pred m W x y)))) :
    ∀ a < W * H, out.read a = m.read a := by
  intro a
  induction a using Nat.strong_induction_on with
  | _ a ih =>
    intro ha
    have hW : 0 < W := Nat.pos_of_lt_mul_right ha
    obtain ⟨v, hv⟩ := Option.isSome_iff_exists.1 (hholds a ha)
    have hsample : sample m a = v.toNat := by rw [sample, hv, Option.getD_some]
    have hpixel := hout (a % W) (a / W) (Nat.mod_lt a hW) (Nat.div_lt_of_lt_mul ha)
    rw [Nat.div_add_mod', predictionAt_congr pred (Nat.mod_lt a hW) fun b hb => ?before, hsample,
      reconstruct_residualOf, ← hv] at hpixel
    case before =>
      rw [Nat.div_add_mod'] at hb
      exact ih b hb (hb.trans ha)
    exact hpixel

/-- Settles O39: the frame is one whose header is accepted and whose body holds a codeword per pixel, so that
I.DECODE reconstructs its raster from the residuals of the image. -/
theorem imageRoundTrip : Obligations.ImageRoundTrip := by
  intro s t u tail henc hok hv hpred hw hh hbit
  obtain ⟨hdims, hholds, hframe⟩ := frame_of_execIEncode henc hok
  rw [hframe, frameBits, List.append_assoc, ← hpred, ← hw, ← hh] at hbit
  rw [← hw, ← hh] at hholds ⊢
  have hdims' : dimsLegal u := by rwa [dimsLegal, hw, hh]
  obtain ⟨v, hx, hsamples, -, herr, -⟩ := iDecodeReconstructs u _ _ tail hv hdims' (one_le_selectM _)
    ((selectM_imageResiduals_le ..).trans (by decide)) (length_imageResiduals ..) hbit
  refine ⟨v, hx, herr, ?_⟩
  refine read_eq_of_reconstructs (pred := u.i.pred) hholds fun x y hx hy => ?_
  obtain ⟨r, hr, hread⟩ := hsamples x y hx hy
  cases hr.symm.trans (getElem?_imageResiduals u.i.pred s.pix hx hy)
  exact hread

end Sys2Proof.Machine
end

section
/-! PROOF. The outcomes of the nine operations: which operation reports which error and why, and what an
error leaves unchanged (60_exceptions.md rules R235 to R248). -/

namespace Sys2Proof.Machine

/-! ### How the operations end -/

/-- A Golomb operation ends with OK, or G.CONSTRUCT or G.SETM meets the divisor 0, or G.DECODE meets no
symbol. -/
theorem golomb_outcome_cases {i : Instr} {s t : State}
    (hi : i ∈ [Instr.gConstruct, .gSetm, .gEncode, .gEncodeto, .gDecode, .gBitstostr])
    (h : exec i s = .next t) :
    t.g.err = .ok ∨
    (i ∈ [Instr.gConstruct, .gSetm] ∧ s.g.opM = 0 ∧ t = raiseG .invalidParameter s) ∨
    (i = .gDecode ∧ t = gDecodeAt s.bit s.g.opPos s ∧ t.g.err = .malformed) := by
  simp only [List.mem_cons, List.not_mem_nil, or_false] at hi
  rcases hi with rfl | rfl | rfl | rfl | rfl | rfl
  case inl =>
    rcases execGConstruct_eq_next h with ⟨h0, ht⟩ | ⟨-, -, rfl⟩
    · exact .inr (.inl ⟨by decide, h0, ht⟩)
    · exact .inl rfl
  case inr.inl =>
    obtain ⟨-, ⟨h0, ht⟩ | ⟨-, -, rfl⟩⟩ := execGSetm_eq_next h
    · exact .inr (.inl ⟨by decide, h0, ht⟩)
    · exact .inl rfl
  case inr.inr.inr.inr.inl =>
    obtain ⟨-, rfl⟩ := requireG_eq_next h
    exact (gDecodeAt_err s.bit s.g.opPos s).imp_right fun hmal => .inr ⟨rfl, rfl, hmal⟩
  all_goals
    obtain ⟨-, rfl⟩ := requireG_eq_next h
    exact .inl rfl

/-- A divisor of 0 is an error of G.CONSTRUCT and G.SETM. -/
theorem err_of_divisor_zero {i : Instr} {s t : State} (hi : i ∈ [Instr.gConstruct, .gSetm])
    (h : exec i s = .next t) (h0 : s.g.opM = 0) : t.g.err = .invalidParameter := by
  simp only [List.mem_cons, List.not_mem_nil, or_false] at hi
  rcases hi with rfl | rfl
  · cases (execGConstruct_of_zero h0).symm.trans h
    rfl
  · cases (execGSetm_of_zero (execGSetm_eq_next h).1 h0).symm.trans h
    rfl

theorem execIConstruct_err {s t : State} (h : execIConstruct s = .next t) : t.i.err = .ok := by
  obtain ⟨pred, -, rfl⟩ := execIConstruct_eq_next h
  rfl

theorem execIEncode_err {s t : State} (h : execIEncode s = .next t) :
    t.i.err = if shapeBad s then .invalidShape else .ok := by
  obtain ⟨-, -, ⟨hs, rfl⟩ | ⟨hs, F, -, rfl⟩⟩ := execIEncode_eq_next h <;> rw [hs] <;> rfl

/-- I.CONSTRUCT reports no error, and I.ENCODE none but INVALID_SHAPE. -/
theorem construct_encode_err {i : Instr} {s t : State} (hi : i ∈ [Instr.iConstruct, .iEncode])
    (h : exec i s = .next t) : t.i.err = .ok ∨ t.i.err = .invalidShape := by
  fin_cases hi
  · exact .inl (execIConstruct_err h)
  · rw [execIEncode_err h]
    split
    · exact .inr rfl
    · exact .inl rfl

/-- The errors of I.DECODE other than MALFORMED are those of its checks. -/
theorem execIDecode_err_iff {s t : State} {k : ErrCode} (h : execIDecode s = .next t) (hok : k ≠ .ok)
    (hmal : k ≠ .malformed) : t.i.err = k ↔ s.verdict = .error k := by
  rcases execIDecode_cases (execIDecode_eq_next h).1 with ⟨k', hk', -, hx⟩ | ⟨gm, hgm, hx⟩
  · cases hx.symm.trans h
    rw [hk', Except.error.injEq]
    rfl
  · rw [hgm]
    rcases decodeBody_eq_next (hx.symm.trans h) with ⟨c, o, -, rfl⟩ | rfl
    · exact ⟨fun hk => absurd hk.symm hok, nofun⟩
    · exact ⟨fun hk => absurd hk.symm hmal, nofun⟩

/-! ### INVALID_PARAMETER (60_exceptions.md rule R236) -/

theorem verdict_eq_invalidParameter_iff {s : State} :
    s.verdict = .error .invalidParameter ↔
      dimsLegal s ∧ ∃ hd, readHeader s.bit = some hd ∧
        headerMatches s.i.opW s.i.opH s.i.pred hd ∧ hd.m = 0 := by
  by_cases hdims : dimsLegal s
  · cases hread : readHeader s.bit with
    | none => simp [verdict_of_no_header hdims hread]
    | some hd =>
      rw [verdict_of_header hdims hread]
      split
      case isTrue hmatch =>
        split
        · next h0 => exact ⟨fun _ => ⟨hdims, hd, rfl, hmatch, h0⟩, fun _ => rfl⟩
        · next h0 => simp [h0]
      case isFalse hmis => simp [hmis]
  · rw [verdict_of_dimsBad (Bool.not_eq_false _ ▸ mt dimsBad_eq_false_iff.1 hdims)]
    simp [hdims]

/-- Settles O50. -/
theorem invalidParameterCauses : Obligations.InvalidParameterCauses := by
  refine fun s t => ⟨fun i hi h => ⟨fun herr => ?divisor, err_of_divisor_zero hi h⟩,
    fun i hi h herr => ?others, fun i hi h => ?image, fun h => ?decode⟩
  case divisor =>
    rcases golomb_outcome_cases (List.mem_append_left _ hi) h with hok | ⟨-, h0, -⟩ | ⟨-, -, hmal⟩
    · cases herr.symm.trans hok
    · exact h0
    · cases herr.symm.trans hmal
  case others =>
    rcases golomb_outcome_cases (List.mem_append_right [.gConstruct, .gSetm] hi) h with
      hok | ⟨hi', -, -⟩ | ⟨-, -, hmal⟩
    · cases herr.symm.trans hok
    · revert hi
      fin_cases hi' <;> decide
    · cases herr.symm.trans hmal
  case image => rcases construct_encode_err hi h with herr | herr <;> rw [herr] <;> decide
  case decode =>
    rw [execIDecode_err_iff h (by decide) (by decide), verdict_eq_invalidParameter_iff]
    simp only [headerMatches, and_assoc]

/-! ### INVALID_SHAPE (60_exceptions.md rule R237) -/

theorem verdict_ne_invalidShape {s : State} (hdims : dimsLegal s) : s.verdict ≠ .error .invalidShape := by
  cases hread : readHeader s.bit with
  | none => simp [verdict_of_no_header hdims hread]
  | some hd =>
    rw [verdict_of_header hdims hread]
    split
    · split <;> simp
    · simp

theorem verdict_eq_invalidShape_iff {s : State} :
    s.verdict = .error .invalidShape ↔ dimsBad s.i.opW s.i.opH = true := by
  refine ⟨fun h => ?_, verdict_of_dimsBad⟩
  by_contra hbad
  exact verdict_ne_invalidShape (dimsBad_eq_false_iff.1 (Bool.eq_false_iff.2 hbad)) h

/-- Settles O51. -/
theorem invalidShapeCauses : Obligations.InvalidShapeCauses := by
  refine fun s t => ⟨fun h => ?encode, fun h => ?decode, fun h => ?construct, fun i hi h herr => ?golomb⟩
  case encode =>
    rw [← shapeBad_iff, execIEncode_err h]
    split <;> simp_all
  case decode =>
    rw [execIDecode_err_iff h (by decide) (by decide), verdict_eq_invalidShape_iff, dimsBad_iff]
  case construct =>
    rw [execIConstruct_err h]
    decide
  case golomb =>
    rcases golomb_outcome_cases hi h with hok | ⟨-, -, rfl⟩ | ⟨-, -, hmal⟩
    · cases herr.symm.trans hok
    · cases herr
    · cases herr.symm.trans hmal

/-! ### MALFORMED (60_exceptions.md rule R238) -/

/-- A source holds no symbol exactly where no codeword stands. -/
theorem readSymbol_eq_none_iff {S : BitSeq} {pos m : Nat} (hm : 1 ≤ m) :
    readSymbol S pos m = none ↔ ¬ ∃ n tail, S.drop pos = codewordBits n m ++ tail := by
  refine ⟨fun hnone ⟨n, tail, hdrop⟩ => ?_, fun h =>
    Option.eq_none_iff_forall_ne_some.2 fun ⟨n, k⟩ hsome => ?_⟩
  · have hpos : pos ≤ S.length := by
      by_contra hout
      rw [List.drop_eq_nil_of_le (by omega)] at hdrop
      simp [codewordBits] at hdrop
    have hread := readSymbol_codewordBits hm n (S.take pos) tail
    rw [← hdrop, List.take_append_drop, List.length_take_of_le hpos, hnone] at hread
    cases hread
  · obtain ⟨-, tail, htail⟩ := readSymbol_eq_some hm hsome
    exact h ⟨n, tail, htail.symm⟩

theorem decodeSym_eq_none_iff {S : BitSeq} {pos m : Nat} {mode : SignMode} :
    decodeSym S pos m mode = none ↔ readSymbol S pos m = none := by
  rw [decodeSym]
  cases readSymbol S pos m <;> simp

theorem gDecodeAt_err_eq_malformed_iff {S : BitSeq} {pos : Nat} {s : State} :
    (gDecodeAt S pos s).g.err = .malformed ↔ decodeSym S pos s.g.m.toNat s.g.mode = none := by
  rcases gDecodeAt_cases S pos s with ⟨v, k, hsym, ht⟩ | ⟨hsym, ht⟩ <;> rw [hsym, ht]
  · exact ⟨nofun, nofun⟩
  · exact ⟨fun _ => rfl, fun _ => rfl⟩

/-- Settles O52. -/
theorem malformedOnlyFromSources : Obligations.MalformedOnlyFromSources := by
  refine fun s t => ⟨fun i hi h herr => ?golomb, fun i hi h => ?image, fun hm h => ?decode⟩
  case golomb =>
    have hmem : i ∈ [Instr.gConstruct, .gSetm, .gEncode, .gEncodeto, .gDecode, .gBitstostr] := by
      fin_cases hi <;> decide
    rcases golomb_outcome_cases hmem h with hok | ⟨-, -, rfl⟩ | ⟨rfl, -, -⟩
    · cases herr.symm.trans hok
    · cases herr
    · exact absurd hi (by decide)
  case image => rcases construct_encode_err hi h with herr | herr <;> rw [herr] <;> decide
  case decode =>
    obtain ⟨-, rfl⟩ := requireG_eq_next h
    rw [gDecodeAt_err_eq_malformed_iff, decodeSym_eq_none_iff, readSymbol_eq_none_iff hm]

/-! ### What an error leaves unchanged (60_exceptions.md rule R241, points 4 and 5) -/

/-- I.DECODE only reads its source. -/
theorem execIDecode_bit {s t : State} (h : execIDecode s = .next t) : t.bit = s.bit := by
  obtain ⟨-, ⟨k, -, rfl⟩ | ⟨hd, -, -, hb⟩⟩ := execIDecode_eq_next h
  · rfl
  · rcases decodeBody_eq_next hb with ⟨c, o, -, rfl⟩ | rfl <;> rfl

/-- I.ENCODE only reads its raster. -/
theorem execIEncode_pix {s t : State} (h : execIEncode s = .next t) : t.pix = s.pix := by
  obtain ⟨-, -, ⟨-, rfl⟩ | ⟨-, F, -, rfl⟩⟩ := execIEncode_eq_next h <;> rfl

/-- A Golomb operation that fails leaves everything outside its unit, and its unit's configuration. -/
theorem golomb_error_frame {i : Instr} {s t : State}
    (hi : i ∈ [Instr.gConstruct, .gSetm, .gEncode, .gEncodeto, .gDecode, .gBitstostr])
    (h : exec i s = .next t) (herr : t.g.err ≠ .ok) : gConfigKept s t ∧ keptOutsideG s t := by
  rcases golomb_outcome_cases hi h with hok | ⟨-, -, rfl⟩ | ⟨-, rfl, -⟩
  · exact absurd hok herr
  · obtain ⟨hconfig, -, -, -, houtside⟩ := onlyGErrChanged_raiseG .invalidParameter s
    exact ⟨hconfig, houtside⟩
  · obtain ⟨hconfig, -, -, houtside⟩ := gDecodeAt_frame s.bit s.g.opPos s
    exact ⟨hconfig, houtside⟩

/-- Settles O53. -/
theorem errorsKeepConfiguration : Obligations.ErrorsKeepConfiguration := by
  refine fun s t => ⟨fun i hi h herr => ?golomb, execIConstruct_err, fun h _ => ?encode,
    fun h _ => ?decode⟩
  case golomb =>
    obtain ⟨hconfig, hunit, -, hbits, hraster, -⟩ := golomb_error_frame hi h herr
    exact ⟨hconfig, ⟨by rw [hunit], by rw [hunit]⟩, hbits, hraster⟩
  case encode =>
    obtain ⟨hg, hi⟩ := (configKept_execIEncode h).kept
    exact ⟨hg, hi, fun a => by rw [execIEncode_pix h]⟩
  case decode =>
    obtain ⟨hg, hi⟩ := (configKept_execIDecode h).kept
    rw [bitsKept, execIDecode_bit h]
    exact ⟨hg, hi, rfl, fun _ => rfl⟩

/-! ### Outcome codes and the guard of rule R248 -/

/-- Settles O45: a word runs `State.deliver` with its outcome at its unit. -/
theorem outcomeWords : Obligations.OutcomeWords := by
  refine fun s => ⟨fun e he => ?gUnit, fun e he => ?iUnit⟩
  case gUnit =>
    obtain ⟨k, hx, hk⟩ : ∃ k, exec e.1 s = .next (s.deliver .gUnit k) ∧ k.code = e.2 := by
      fin_cases he <;> exact ⟨_, rfl, rfl⟩
    exact ⟨_, hx, hk, onlyGErrChanged_raiseG k s⟩
  case iUnit =>
    obtain ⟨k, hx, hk⟩ : ∃ k, exec e.1 s = .next (s.deliver .iUnit k) ∧ k.code = e.2 := by
      fin_cases he <;> exact ⟨_, rfl, rfl⟩
    exact ⟨_, hx, hk, rfl, onlyIOutcomeChanged_deliver k s.fr s⟩

/-- Settles O49. -/
theorem unconstructedRefused : Obligations.UnconstructedRefused := by
  refine fun s => ⟨fun hv i hi => ?golomb, fun hv m n => requireG_of_not_valid hv, fun hv i hi => ?image,
    fun hv w h m p r => requireI_of_not_valid hv⟩
  case golomb =>
    fin_cases hi
    · exact execGSetm_of_not_valid hv
    all_goals exact requireG_of_not_valid hv
  case image => fin_cases hi <;> exact requireI_of_not_valid hv

end Sys2Proof.Machine
end

section
/-! PROOF. A step beside running a decoded word: idle, the host's writes, and the words that are no
instruction (70_reset_and_hazards.md rule R265; 10_state.md rules R17, R26; 20_memory.md rule R59). -/

namespace Sys2Proof.Machine

theorem step_of_empty {s : State} (hq : s.inbox = []) : step s = .next s := by
  rw [step, fetch, hq]

/-- A request that is no word is taken from the queue and served. -/
theorem step_of_hostWrite {s : State} {r : Request} {rest : List Request} (hq : s.inbox = r :: rest)
    (hr : ∀ p, r ≠ .word p) : step s = .next (hostWrite r (s.setInbox rest)) := by
  rcases fetch_cases s with ⟨hnil, -⟩ | ⟨p, rest', hword, -⟩ | ⟨r', rest', hhost, -, hf⟩
  · cases hnil.symm.trans hq
  · exact absurd (List.cons.inj (hq.symm.trans hword)).1 (hr p)
  · cases hhost.symm.trans hq
    rw [step, hf]

/-- A word that is no instruction is taken from the queue and rejected. -/
theorem step_of_error {s : State} {p : PortWord} {rest : List Request} {e : DecodeError}
    (hq : s.inbox = .word p :: rest) (hd : decode s.g.m.toNat p = .error e) :
    step s = rejectWord e (s.setInbox rest) := by
  simp [step, fetch, hq, hd]

theorem decode_codeword_of_none {S : BitSeq} {m : Nat} (h : readSymbol S 0 m = none) :
    decode m (.codeword S) = .error .truncatedCodeword := by
  rw [decode, h]

theorem decodePredSelect_of_reserved {id : BitVec 4} (h : 5 < id.toNat) :
    decodePredSelect id = .error (.noPredictor id) := by
  rw [decodePredSelect, ofId_eq_none_of_gt h]

/-- Bits that end inside a codeword end as G.DECODE ends on them (30_encoding.md rule R88). -/
theorem step_of_truncated {s : State} {S : BitSeq} {rest : List Request}
    (hq : s.inbox = .word (.codeword S) :: rest) (hread : readSymbol S 0 s.g.m.toNat = none)
    (hv : s.g.valid = true) : step s = .next (failGDecode (s.setInbox rest)) :=
  (step_of_error hq (decode_codeword_of_none hread)).trans (requireG_of_valid hv)

/-- Settles O57: the writes are `hostWrite` of their requests. -/
theorem stepServesHost : Obligations.StepServesHost := by
  refine fun s rest => ⟨step_of_empty, fun n => ?registers, fun v hq => step_of_hostWrite hq nofun,
    fun S hq => step_of_hostWrite hq nofun, fun B hq => step_of_hostWrite hq nofun, fun B hq => ?raster,
    fun S hq hread hv => ?truncated, fun id hid hq => ?reserved⟩
  case registers =>
    refine ⟨fun hq => ?_, fun hq => ?_, fun hq => ?_, fun hq => ?_, fun hq => ?_⟩ <;>
      exact step_of_hostWrite hq nofun
  case raster =>
    exact ⟨_, step_of_hostWrite hq nofun, Memory.read_ofBytes B, rfl, rfl, rfl, rfl, rfl, rfl⟩
  case truncated =>
    exact ⟨_, step_of_truncated hq hread hv, rfl, ⟨rfl, rfl, rfl, rfl, rfl, rfl⟩, ⟨rfl, rfl, rfl, rfl⟩,
      ⟨rfl, rfl⟩, rfl, ⟨rfl, fun _ => rfl⟩, fun _ => rfl, rfl⟩
  case reserved => exact step_of_error hq (decodePredSelect_of_reserved hid)

end Sys2Proof.Machine
end
